-- ==== Sys2Proof/Word.lean ====
section
/-! DEFINITION. The byte and word types of the stream (00_scope.md R6, R14). -/

namespace Sys2Proof

/-- `u8`, "BYTE" (R6, R14). -/
abbrev Byte := BitVec 8

/-- `u16`, "WORD" (R6, R14). -/
abbrev Word := BitVec 16

end Sys2Proof
end

