-- ==== Sys2Proof/Syntax/Forms.lean ====
section
/-! DEFINITION. The operand shapes of an encoded instruction: the r/m operand, data immediates, and the encoding
forms that one instruction type may take (30_encoding.md R71 to R103). A form holds exactly the bits its encoding has. -/

namespace Sys2Proof

/-- The `w` bit (R71): 0 is Byte, 1 is Word. -/
inductive OpWidth where
  | byte
  | word
  deriving DecidableEq, Repr

/-- The four segment registers (10_state.md R30). -/
inductive SegmentType where
  | ES
  | CS
  | SS
  | DS
  deriving DecidableEq, Repr

/-- A memory r/m operand as encoded (R75 to R77). `rm` is the ModRM field; for `noDisp` it is not 6, since
`mod = 0, rm = 6` is the direct form. A disp8 is kept as its raw byte. -/
inductive Mem where
  | direct (addr : Word)
  | noDisp (rm : BitVec 3)
  | disp8 (rm : BitVec 3) (b : Byte)
  | disp16 (rm : BitVec 3) (v : Word)
  deriving DecidableEq, Repr

/-- The r/m operand: a register (`mod = 3`, R74) or memory. -/
inductive RM where
  | reg (rm : BitVec 3)
  | mem (m : Mem)
  deriving DecidableEq, Repr

/-- An immediate of the instruction's data width (R80); the width it has is the w bit of the opcode. -/
inductive Data where
  | byte (b : Byte)
  | word (v : Word)
  deriving DecidableEq, Repr

/-- The forms of ADD, OR, ADC, SBB, AND, SUB, XOR, CMP: opcodes `k+0 .. k+5` and group 1 (41_arithmetic.md). -/
inductive AluForm where
  /-- `k+0`, `k+1`: `E,G`. -/
  | eg (w : OpWidth) (e : RM) (g : BitVec 3)
  /-- `k+2`, `k+3`: `G,E`. -/
  | ge (w : OpWidth) (g : BitVec 3) (e : RM)
  /-- `k+4`, `k+5`: `ACC,I`. -/
  | accI (imm : Data)
  /-- 80 and 81: `E,I`. -/
  | eI (e : RM) (imm : Data)
  /-- 82: `E,I` at byte width. -/
  | eI82 (e : RM) (imm : Byte)
  /-- 83: `E,Is`, the imm8 sign-extended to a word (R81). -/
  | eIs (e : RM) (imm : Byte)
  deriving DecidableEq, Repr

/-- The forms of MOV (40_data_transfer.md R120 to R124). -/
inductive MovForm where
  /-- 88, 89: `E,G`. -/
  | eg (w : OpWidth) (e : RM) (g : BitVec 3)
  /-- 8A, 8B: `G,E`. -/
  | ge (w : OpWidth) (g : BitVec 3) (e : RM)
  /-- C6 /0, C7 /0: `E,I`. -/
  | eI (e : RM) (imm : Data)
  /-- B0 to BF: `REG8@op,I` and `REG16@op,I`. -/
  | regI (r : BitVec 3) (imm : Data)
  /-- A0, A1: `ACC,MOFFS`. -/
  | accMoffs (w : OpWidth) (addr : Word)
  /-- A2, A3: `MOFFS,ACC`. -/
  | moffsAcc (w : OpWidth) (addr : Word)
  /-- 8C: `Ew,S`. -/
  | ewS (e : RM) (s : SegmentType)
  /-- 8E: `S,Ew`. -/
  | sEw (s : SegmentType) (e : RM)
  deriving DecidableEq, Repr

/-- The forms of PUSH and POP (R125, R126). -/
inductive StackForm where
  | reg16 (r : BitVec 3)
  | sreg (s : SegmentType)
  | rm (e : RM)
  deriving DecidableEq, Repr

/-- The forms of XCHG (R127). -/
inductive XchgForm where
  | eg (w : OpWidth) (e : RM) (g : BitVec 3)
  /-- 91 to 97; register 0 would be 90, which is NOP. -/
  | ax (r : BitVec 3)
  deriving DecidableEq, Repr

/-- The forms of IN and OUT (R128, R129). -/
inductive PortForm where
  | imm (w : OpWidth) (port : Byte)
  | dx (w : OpWidth)
  deriving DecidableEq, Repr

/-- The forms of INC and DEC (41_arithmetic.md R152, R157). -/
inductive IncDecForm where
  | reg16 (r : BitVec 3)
  | rm (w : OpWidth) (e : RM)
  deriving DecidableEq, Repr

/-- The forms of TEST (42_logic.md R189). -/
inductive TestForm where
  | eg (w : OpWidth) (e : RM) (g : BitVec 3)
  | accI (imm : Data)
  | eI (e : RM) (imm : Data)
  deriving DecidableEq, Repr

/-- The count operand of a shift or rotate (30_encoding.md R98). -/
inductive ShiftCount where
  | one
  | cl
  deriving DecidableEq, Repr

/-- The forms of CALL (44_control_transfer.md R215). -/
inductive CallForm where
  | rel16 (d : Word)
  | rm (e : RM)
  deriving DecidableEq, Repr

/-- The forms of JMP (R217). -/
inductive JmpForm where
  | rel8 (d : Byte)
  | rel16 (d : Word)
  | rm (e : RM)
  deriving DecidableEq, Repr

/-- The forms of CALLF and JMPF (R216, R218); `far` keeps stream order, the offset word first (30_encoding.md R84). -/
inductive FarForm where
  | far (off seg : Word)
  | mem (m : Mem)
  deriving DecidableEq, Repr

/-- The forms of RET and RETF (R219, R220). -/
inductive RetForm where
  | plain
  | adjust (n : Word)
  deriving DecidableEq, Repr

end Sys2Proof
end

