-- ==== Sys2Proof/Machine/DataModel.lean ====
section
/-! DEFINITION. The data model of the result port (10_state.md R25 to R38), the table entries the decoder looks up
(30_encoding.md R88, R90 to R103), and the phases of a decode call (10_state.md R23). Offsets and lengths are the
source's u32 quantities, held as Nat and bounded by the state invariant (notes/assumptions/8.md). -/

namespace Sys2Proof.Machine

/-- `RegisterType` (R28): byte, word and segment registers. -/
inductive RegisterType where
  | AL | CL | DL | BL | AH | CH | DH | BH | AX | CX | DX | BX | SP | BP | SI | DI | ES | CS | SS | DS
  deriving DecidableEq, Repr

/-- `DataWidthType` (R31). -/
inductive DataWidth where
  | none
  | byte
  | word
  deriving DecidableEq, Repr

/-- `ImmediateFlag` (R32). -/
inductive ImmediateFlag where
  | none
  | relativeJumpDisplacement
  | portNumber
  | interruptType
  | stackAdjust
  | farSegment
  | farOffset
  | escapeCode
  | implicitOne
  deriving DecidableEq, Repr

/-- `Imm` (R33): raw bits of the width, and a role. -/
inductive Imm where
  | byte (bits : Byte) (flag : ImmediateFlag)
  | word (bits : Word) (flag : ImmediateFlag)
  deriving DecidableEq, Repr

/-- `EAForm` (R34, R76). -/
inductive EAForm where
  | BX_SI
  | BX_DI
  | BP_SI
  | BP_DI
  | SI
  | DI
  | BP
  | BX
  | DIRECT
  deriving DecidableEq, Repr

/-- `Disp` (R34): `disp8` holds the sign-extended value. -/
inductive Disp where
  | noDisp
  | disp8 (v : Word)
  | disp16 (v : Word)
  deriving DecidableEq, Repr

/-- `MemRef` (R34): `seg` is the override in force, `none` the implicit default segment. -/
structure MemRef where
  ea : EAForm
  disp : Disp
  seg : Option SegmentType
  deriving DecidableEq, Repr

/-- `Operand` (R27). -/
inductive Operand where
  | register (r : RegisterType)
  | immediate (i : Imm)
  | memory (m : MemRef)
  deriving DecidableEq, Repr

/-- `InstructionType` (R38): 100 names. -/
inductive InstructionType where
  | ADD | OR | ADC | SBB | AND | SUB | XOR | CMP | DAA | DAS | AAA | AAS | INC | DEC | PUSH | POP | JO | JNO
  | JB | JAE | JE | JNE | JBE | JA | JS | JNS | JP | JNP | JL | JGE | JLE | JG | TEST | XCHG | MOV | LEA
  | NOP | CBW | CWD | CALL | CALLF | WAIT | PUSHF | POPF | SAHF | LAHF | MOVSB | MOVSW | CMPSB | CMPSW
  | STOSB | STOSW | LODSB | LODSW | SCASB | SCASW | RET | RETF | LES | LDS | INT3 | INT | INTO | IRET | ROL
  | ROR | RCL | RCR | SHL | SHR | SAR | AAM | AAD | XLAT | ESC | LOOPNZ | LOOPZ | LOOP | JCXZ | IN | OUT
  | JMP | JMPF | LOCK | REPNE | REP | HLT | CMC | NOT | NEG | MUL | IMUL | DIV | IDIV | CLC | STC | CLI | STI
  | CLD | STD
  deriving DecidableEq, Repr

/-- `Instruction` (R25), the value a successful call returns. -/
structure Instruction where
  opcodeByte : Byte
  length : Nat
  type : InstructionType
  width : DataWidth
  operands : List Operand
  deriving DecidableEq, Repr

/-- The three error kinds (60_exceptions.md R320). -/
inductive ErrorKind where
  | unknownOpcode
  | unexpectedEndOfStream
  | invalidOperandEncoding
  deriving DecidableEq, Repr

/-- `Error` (10_state.md R36; 60_exceptions.md R321 to R323). -/
structure Error where
  kind : ErrorKind
  start : Nat
  offset : Nat
  byte : Option Byte
  subop : Option (BitVec 3)
  deriving DecidableEq, Repr

/-- What a call returns: `Ok` or `Err` (00_scope.md R2, R16; 60_exceptions.md R324). -/
inductive CallResult (α : Type) where
  | ok (v : α)
  | err (e : Error)
  deriving DecidableEq, Repr

/-- `OutputValueMode` (10_state.md R37). -/
inductive OutputValueMode where
  | asInteger
  | asHex
  deriving DecidableEq, Repr

/-- The entry point the caller called (47_renderer.md R305, R306). -/
inductive EntryPoint where
  | decodeNext
  | getAssembly
  deriving DecidableEq, Repr

/-- The operand recipes (30_encoding.md R90 to R103, R111, R112, R115). -/
inductive Recipe where
  | eg
  | ge
  | accI
  | eI
  | eIs
  | reg16
  | axReg16
  | reg8I
  | reg16I
  | sreg
  | rel8
  | rel16
  | far
  | e
  | m
  | eOne
  | eCl
  | ewS
  | sEw
  | gM
  | accMoffs
  | moffsAcc
  | accPort
  | portAcc
  | accDx
  | dxAcc
  | bare
  | esc
  | base10
  | iwStack
  | ibInt
  deriving DecidableEq, Repr

/-- The groups (30_encoding.md R114). -/
inductive GroupId where
  | g1
  | g2
  | g3
  | g4
  | g5
  | g8F
  | gC6
  deriving DecidableEq, Repr

/-- A row of `PRIMARY` (30_encoding.md R88, R113). A group row carries the recipe of its column, `e` where the column
says "see rule R114". -/
inductive TableEntry where
  | unknown
  | segPrefix (s : SegmentType)
  | direct (type : InstructionType) (width : DataWidth) (recipe : Recipe)
  | group (g : GroupId) (width : DataWidth) (recipe : Recipe)
  deriving DecidableEq, Repr

/-- The phases of a decode call (10_state.md R23). -/
inductive Phase where
  | start
  | opcodeRead
  | modrmRead
  | displacementRead
  | immediateRead
  | complete
  | failed (e : Error)
  deriving DecidableEq, Repr

end Sys2Proof.Machine
end

