-- ==== Sys2Proof/Config.lean ====
section
/-! DEFINITION. What is fixed for the block, and the parameters the spec leaves open. The opaque constants have no
value that a proof could see. -/

namespace Sys2Proof.Config

/-- The largest admitted buffer (00_scope.md R8, 92_eei_decisions.md D1). -/
def maxBufferBytes : Nat := 2 ^ 32 - 1

/-- Parameter `error_message : Error -> text` (92_eei_decisions.md D28, 93_implementation_defined.md U1, U15; log 16). -/
opaque errorMessage : Machine.Error → String

/-- One fixture of the golden corpus (D27). -/
structure GoldenFixture where
  name : String
  bytes : List Byte
  expected : String
  deriving DecidableEq, Repr

/-- Parameter `golden_corpus` (D27, U12; log 16): the six fixtures are not in the source. -/
opaque goldenCorpus : List GoldenFixture

end Sys2Proof.Config
end

