-- ==== Sys2Proof/Machine/State.lean ====
section
/-! DEFINITION. The machine's state as plain data, its reset value, and the reasons a step can stop. The list under
'## State' of INVENTORY.md names the rule of spec/ behind each field. -/

namespace Sys2Proof.Machine

/-- The buffer `B` (10_state.md R21; 20_memory.md R50): offsets `0 .. size - 1` exist. `cells` lists, by rising address,
the bytes that are not 0x00; an unlisted offset below `size` reads as 0x00 (log 7). -/
structure Memory where
  cells : List Host.Cell
  size : Nat
  deriving DecidableEq, Repr

/-- All the state the spec gives the block, per call (10_state.md R20 to R24; 47_renderer.md R305), and the model's own
field `trail`. -/
structure State where
  /-- Input `B` (10_state.md R21). -/
  buf : Memory
  /-- Input `label` (00_scope.md R12). -/
  label : String
  /-- Input `mode` (00_scope.md R9). -/
  mode : OutputValueMode
  /-- Which entry point was called (47_renderer.md R305, R306). -/
  entryPoint : EntryPoint
  /-- The cursor (10_state.md R22). -/
  pos : Nat
  /-- The phase (R23). -/
  phase : Phase
  /-- The phases of the current call, in order: the model's own record of `phase` (log 14). -/
  trail : List Phase
  /-- The instruction start (R24). -/
  p0 : Nat
  /-- The active segment override (R24). -/
  seg : Option SegmentType
  /-- The opcode byte and its offset (R24). -/
  op : Byte
  opOffset : Nat
  /-- The table entry selected by `op` (R24). -/
  entry : TableEntry
  /-- The ModRM fields and the ModRM byte's offset (R24). -/
  mod : BitVec 2
  reg : BitVec 3
  rm : BitVec 3
  modrmOffset : Nat
  /-- The displacement field (R24). -/
  disp : Disp
  /-- The immediate fields (R24). -/
  imm1 : Imm
  imm2 : Imm
  /-- The result port of the decode call: `none` while the call runs (00_scope.md R2, R16). -/
  result : Option (CallResult Instruction)
  /-- The lines `GetAssembly` has rendered (47_renderer.md R305). -/
  lines : List String
  /-- What `GetAssembly` returned: `none` while it runs (R305). -/
  text : Option (CallResult String)
  deriving DecidableEq, Repr

/-- Why the machine stops with a fault: a decode call has FAILED and returned its Error, and there is nothing further to
run (60_exceptions.md R320, R324, R327; 93_implementation_defined.md U4 to U8). Raised by `step` in a state whose phase
is `failed`, never by a meaning. Safe: the state it stops in holds the Error. -/
inductive Fault where
  /-- The call ended with `UnknownOpcode` (R321). -/
  | unknownOpcode (e : Error)
  /-- The call ended with `UnexpectedEndOfStream` (R322). -/
  | unexpectedEndOfStream (e : Error)
  /-- The call ended with `InvalidOperandEncoding` (R323). -/
  | invalidOperandEncoding (e : Error)
  deriving DecidableEq, Repr

/-- Why the machine gives no meaning: the call is outside the block's domain (60_exceptions.md R328). Safe: nothing is
claimed of such a call. -/
inductive Refusal where
  /-- An instruction with no meaning yet, by its mnemonic. Raised by `exec`'s arms only. -/
  | notModelled (mnemonic : String)
  /-- `N > 2^32 - 1` (00_scope.md R8). Raised by `step`. -/
  | bufferTooLong
  /-- `p0 > N` (60_exceptions.md R328). Raised by `step`. -/
  | startPastEnd
  deriving DecidableEq, Repr

/-- The three outcomes of a step of this machine. -/
abbrev Result := Host.Outcome State Fault Refusal

/-- The empty buffer. -/
def Memory.empty : Memory := ⟨[], 0⟩

/-- The initial state of a `GetAssembly` call (70_reset_and_hazards.md R351, R352), on an empty buffer. The inputs and
the unwritten latches have no value in the spec (log 5, log 6). -/
def State.reset : State where
  buf := Memory.empty
  label := ""
  mode := .asInteger
  entryPoint := .getAssembly
  pos := 0
  phase := .start
  trail := [.start]
  p0 := 0
  seg := none
  op := 0
  opOffset := 0
  entry := .unknown
  mod := 0
  reg := 0
  rm := 0
  modrmOffset := 0
  disp := .noDisp
  imm1 := .byte 0 .none
  imm2 := .byte 0 .none
  result := none
  lines := []
  text := none

end Sys2Proof.Machine
end

