-- ==== Sys2Proof/Machine/Memory.lean ====
section
/-! DEFINITION. The buffer: reading a byte or a run of bytes, the canonical form, and the caller's side (building a
buffer, placing bytes), which the block itself never does (20_memory.md R57). -/

namespace Sys2Proof.Machine

/-- The byte listed at an address, or what an unlisted address reads as. -/
def lookupCell (a : Nat) : List Host.Cell → Byte
  | [] => 0#8
  | c :: rest => if c.1 = a then c.2 else lookupCell a rest

/-- `B[a]`, for an offset that exists (20_memory.md R50, R53). -/
def Memory.read (m : Memory) (a : Nat) : Option Byte := if a < m.size then some (lookupCell a m.cells) else none

/-- The bytes `B[a] .. B[a+n-1]`; offsets past the end give none. -/
def Memory.slice (m : Memory) (a n : Nat) : List Byte := (List.range n).filterMap fun k => m.read (a + k)

/-- Addresses rise strictly, from `lo` on. -/
def cellsRise : Nat → List Host.Cell → Bool
  | _, [] => true
  | lo, c :: rest => decide (lo ≤ c.1) && cellsRise (c.1 + 1) rest

/-- The canonical form: addresses strictly rising and inside the buffer, and no listed byte equal to 0x00. -/
def Memory.wf (m : Memory) : Bool :=
  cellsRise 0 m.cells && m.cells.all fun c => decide (c.1 < m.size) && c.2 != 0#8

/-- Lists `b` at `a`, or removes the entry where `b` is what an unlisted address reads as. -/
def putCell (a : Nat) (b : Byte) : List Host.Cell → List Host.Cell
  | [] => if b = 0#8 then [] else [(a, b)]
  | c :: rest =>
    if c.1 < a then c :: putCell a b rest
    else if c.1 = a then (if b = 0#8 then rest else (a, b) :: rest)
    else if b = 0#8 then c :: rest else (a, b) :: c :: rest

/-- The caller puts byte `b` at offset `a`; the buffer grows to hold it. -/
def Memory.write (m : Memory) (a : Nat) (b : Byte) : Memory := ⟨putCell a b m.cells, max m.size (a + 1)⟩

/-- The caller puts a run of bytes at offset `a`. -/
def Memory.place (m : Memory) (a : Nat) : List Byte → Memory
  | [] => m
  | b :: bs => (m.write a b).place (a + 1) bs

/-- The buffer that holds exactly these bytes (10_state.md R21). -/
def Memory.ofBytes (bs : List Byte) : Memory := Memory.empty.place 0 bs

/-- Whether the buffer is an admitted input (00_scope.md R8). -/
def Memory.admitted (m : Memory) : Bool := decide (m.size ≤ Config.maxBufferBytes)

end Sys2Proof.Machine
end

