-- ==== Sys2Proof/Syntax.lean ====
section
/-! DEFINITION. The instructions of spec/opcode_table.json: one constructor per mnemonic of the table, its argument the
encoding form, so that each row of the table is one constructor at one form, w bit, opcode register field or alias. -/

namespace Sys2Proof

/-- The 100 instruction types (10_state.md R38) and the four segment-override prefix bytes (30_encoding.md R85), as
encoded. The rule of spec/ each follows is named after it. -/
inductive Instr where
  -- Prefixes
  | prefixES  -- prefix_ES, R85
  | prefixCS  -- prefix_CS, R85
  | prefixSS  -- prefix_SS, R85
  | prefixDS  -- prefix_DS, R85
  -- DataTransfer
  | mov (f : MovForm)  -- MOV, R120 to R124
  | push (f : StackForm)  -- PUSH, R125
  | pop (f : StackForm)  -- POP, R126
  | xchg (f : XchgForm)  -- XCHG, R127
  | inPort (f : PortForm)  -- IN, R128
  | outPort (f : PortForm)  -- OUT, R129
  | xlat  -- XLAT, R130
  | lea (g : BitVec 3) (m : Mem)  -- LEA, R131
  | lds (g : BitVec 3) (m : Mem)  -- LDS, R132
  | les (g : BitVec 3) (m : Mem)  -- LES, R133
  | lahf  -- LAHF, R134
  | sahf  -- SAHF, R135
  | pushf  -- PUSHF, R136
  | popf  -- POPF, R137
  -- Arithmetic
  | add (f : AluForm)  -- ADD, R150
  | adc (f : AluForm)  -- ADC, R151
  | inc (f : IncDecForm)  -- INC, R152
  | aaa  -- AAA, R153
  | daa  -- DAA, R154
  | sub (f : AluForm)  -- SUB, R155
  | sbb (f : AluForm)  -- SBB, R156
  | dec (f : IncDecForm)  -- DEC, R157
  | neg (w : OpWidth) (e : RM)  -- NEG, R158
  | cmp (f : AluForm)  -- CMP, R159
  | aas  -- AAS, R160
  | das  -- DAS, R161
  | mul (w : OpWidth) (e : RM)  -- MUL, R162
  | imul (w : OpWidth) (e : RM)  -- IMUL, R163
  | aam  -- AAM, R164
  | div (w : OpWidth) (e : RM)  -- DIV, R165
  | idiv (w : OpWidth) (e : RM)  -- IDIV, R166
  | aad  -- AAD, R167
  | cbw  -- CBW, R168
  | cwd  -- CWD, R169
  -- Logic
  | not (w : OpWidth) (e : RM)  -- NOT, R180
  | shl (n : ShiftCount) (w : OpWidth) (e : RM)  -- SHL, R181
  | shr (n : ShiftCount) (w : OpWidth) (e : RM)  -- SHR, R182
  | sar (n : ShiftCount) (w : OpWidth) (e : RM)  -- SAR, R183
  | rol (n : ShiftCount) (w : OpWidth) (e : RM)  -- ROL, R184
  | ror (n : ShiftCount) (w : OpWidth) (e : RM)  -- ROR, R185
  | rcl (n : ShiftCount) (w : OpWidth) (e : RM)  -- RCL, R186
  | rcr (n : ShiftCount) (w : OpWidth) (e : RM)  -- RCR, R187
  | and (f : AluForm)  -- AND, R188
  | test (f : TestForm)  -- TEST, R189
  | or (f : AluForm)  -- OR, R190
  | xor (f : AluForm)  -- XOR, R191
  -- Strings
  | rep  -- REP, R200
  | repne  -- REPNE, R201
  | movsb  -- MOVSB, R202
  | movsw  -- MOVSW, R203
  | cmpsb  -- CMPSB, R204
  | cmpsw  -- CMPSW, R205
  | scasb  -- SCASB, R206
  | scasw  -- SCASW, R207
  | lodsb  -- LODSB, R208
  | lodsw  -- LODSW, R209
  | stosb  -- STOSB, R210
  | stosw  -- STOSW, R211
  -- ControlTransfer
  | call (f : CallForm)  -- CALL, R215
  | callf (f : FarForm)  -- CALLF, R216
  | jmp (f : JmpForm)  -- JMP, R217
  | jmpf (f : FarForm)  -- JMPF, R218
  | ret (f : RetForm)  -- RET, R219
  | retf (f : RetForm)  -- RETF, R220
  | jo (d : Byte)  -- JO, R221
  | jno (d : Byte)  -- JNO, R222
  | jb (d : Byte)  -- JB, R223
  | jae (d : Byte)  -- JAE, R224
  | je (d : Byte)  -- JE, R225
  | jne (d : Byte)  -- JNE, R226
  | jbe (d : Byte)  -- JBE, R227
  | ja (d : Byte)  -- JA, R228
  | js (d : Byte)  -- JS, R229
  | jns (d : Byte)  -- JNS, R230
  | jp (d : Byte)  -- JP, R231
  | jnp (d : Byte)  -- JNP, R232
  | jl (d : Byte)  -- JL, R233
  | jge (d : Byte)  -- JGE, R234
  | jle (d : Byte)  -- JLE, R235
  | jg (d : Byte)  -- JG, R236
  | loop (d : Byte)  -- LOOP, R237
  | loopz (d : Byte)  -- LOOPZ, R238
  | loopnz (d : Byte)  -- LOOPNZ, R239
  | jcxz (d : Byte)  -- JCXZ, R240
  | int (n : Byte)  -- INT, R241
  | int3  -- INT3, R242
  | into  -- INTO, R243
  | iret  -- IRET, R244
  -- ProcessorControl
  | clc  -- CLC, R250
  | cmc  -- CMC, R251
  | stc  -- STC, R252
  | cld  -- CLD, R253
  | std  -- STD, R254
  | cli  -- CLI, R255
  | sti  -- STI, R256
  | hlt  -- HLT, R257
  | wait  -- WAIT, R258
  | esc (code : BitVec 6) (e : RM)  -- ESC, R259
  | lock  -- LOCK, R260
  | nop  -- NOP, R261
  deriving DecidableEq, Repr

end Sys2Proof
end

