-- ==== Sys2Proof/WellFormed.lean ====
section
/-! DEFINITION. Which terms of `Instr` are encodings of the 8086 map: the checks that the types of the forms do not
make themselves. -/

namespace Sys2Proof

/-- `mod = 0, rm = 6` is the direct form, so `noDisp` never has `rm = 6` (30_encoding.md R75, R76). -/
def Mem.wellFormed : Mem → Bool
  | .noDisp rm => rm != 6#3
  | .direct _ => true
  | .disp8 _ _ => true
  | .disp16 _ _ => true

def RM.wellFormed : RM → Bool
  | .reg _ => true
  | .mem m => m.wellFormed

def AluForm.wellFormed : AluForm → Bool
  | .eg _ e _ => e.wellFormed
  | .ge _ _ e => e.wellFormed
  | .accI _ => true
  | .eI e _ => e.wellFormed
  | .eI82 e _ => e.wellFormed
  | .eIs e _ => e.wellFormed

/-- MOV to CS has no encoding: 8E with `reg = 1` is an error (30_encoding.md R109). -/
def MovForm.wellFormed : MovForm → Bool
  | .eg _ e _ => e.wellFormed
  | .ge _ _ e => e.wellFormed
  | .eI e _ => e.wellFormed
  | .regI _ _ => true
  | .accMoffs _ _ => true
  | .moffsAcc _ _ => true
  | .ewS e _ => e.wellFormed
  | .sEw s e => s != .CS && e.wellFormed

/-- PUSH of any segment register (40_data_transfer.md R125). -/
def StackForm.wellFormed : StackForm → Bool
  | .reg16 _ => true
  | .sreg _ => true
  | .rm e => e.wellFormed

/-- POP CS has no encoding: byte 0F is `UnknownOpcode` (40_data_transfer.md R126). -/
def StackForm.wellFormedPop : StackForm → Bool
  | .reg16 _ => true
  | .sreg s => s != .CS
  | .rm e => e.wellFormed

/-- 90 is NOP, so the `AX,REG16@op` form never has register 0 (40_data_transfer.md R127, R261). -/
def XchgForm.wellFormed : XchgForm → Bool
  | .eg _ e _ => e.wellFormed
  | .ax r => r != 0#3

def IncDecForm.wellFormed : IncDecForm → Bool
  | .reg16 _ => true
  | .rm _ e => e.wellFormed

def TestForm.wellFormed : TestForm → Bool
  | .eg _ e _ => e.wellFormed
  | .accI _ => true
  | .eI e _ => e.wellFormed

def CallForm.wellFormed : CallForm → Bool
  | .rel16 _ => true
  | .rm e => e.wellFormed

def JmpForm.wellFormed : JmpForm → Bool
  | .rel8 _ => true
  | .rel16 _ => true
  | .rm e => e.wellFormed

def FarForm.wellFormed : FarForm → Bool
  | .far _ _ => true
  | .mem m => m.wellFormed

/-- The instruction has an encoding (30_encoding.md R113, R114). -/
def Instr.wellFormed : Instr → Bool
  | .prefixES => true
  | .prefixCS => true
  | .prefixSS => true
  | .prefixDS => true
  | .mov f => f.wellFormed
  | .push f => f.wellFormed
  | .pop f => f.wellFormedPop
  | .xchg f => f.wellFormed
  | .inPort _ => true
  | .outPort _ => true
  | .xlat => true
  | .lea _ m => m.wellFormed
  | .lds _ m => m.wellFormed
  | .les _ m => m.wellFormed
  | .lahf => true
  | .sahf => true
  | .pushf => true
  | .popf => true
  | .add f => f.wellFormed
  | .adc f => f.wellFormed
  | .inc f => f.wellFormed
  | .aaa => true
  | .daa => true
  | .sub f => f.wellFormed
  | .sbb f => f.wellFormed
  | .dec f => f.wellFormed
  | .neg _ e => e.wellFormed
  | .cmp f => f.wellFormed
  | .aas => true
  | .das => true
  | .mul _ e => e.wellFormed
  | .imul _ e => e.wellFormed
  | .aam => true
  | .div _ e => e.wellFormed
  | .idiv _ e => e.wellFormed
  | .aad => true
  | .cbw => true
  | .cwd => true
  | .not _ e => e.wellFormed
  | .shl _ _ e => e.wellFormed
  | .shr _ _ e => e.wellFormed
  | .sar _ _ e => e.wellFormed
  | .rol _ _ e => e.wellFormed
  | .ror _ _ e => e.wellFormed
  | .rcl _ _ e => e.wellFormed
  | .rcr _ _ e => e.wellFormed
  | .and f => f.wellFormed
  | .test f => f.wellFormed
  | .or f => f.wellFormed
  | .xor f => f.wellFormed
  | .rep => true
  | .repne => true
  | .movsb => true
  | .movsw => true
  | .cmpsb => true
  | .cmpsw => true
  | .scasb => true
  | .scasw => true
  | .lodsb => true
  | .lodsw => true
  | .stosb => true
  | .stosw => true
  | .call f => f.wellFormed
  | .callf f => f.wellFormed
  | .jmp f => f.wellFormed
  | .jmpf f => f.wellFormed
  | .ret _ => true
  | .retf _ => true
  | .jo _ => true
  | .jno _ => true
  | .jb _ => true
  | .jae _ => true
  | .je _ => true
  | .jne _ => true
  | .jbe _ => true
  | .ja _ => true
  | .js _ => true
  | .jns _ => true
  | .jp _ => true
  | .jnp _ => true
  | .jl _ => true
  | .jge _ => true
  | .jle _ => true
  | .jg _ => true
  | .loop _ => true
  | .loopz _ => true
  | .loopnz _ => true
  | .jcxz _ => true
  | .int _ => true
  | .int3 => true
  | .into => true
  | .iret => true
  | .clc => true
  | .cmc => true
  | .stc => true
  | .cld => true
  | .std => true
  | .cli => true
  | .sti => true
  | .hlt => true
  | .wait => true
  | .esc _ e => e.wellFormed
  | .lock => true
  | .nop => true

end Sys2Proof
end

