-- ==== Sys2Proof/Decode.lean ====
section
/-! DEFINITION. Bytes to `Instr` and back. The decoder reads ONE unit of the stream, a segment-override prefix byte or
an instruction from its opcode byte on (30_encoding.md R85, R87, R113, R114), and rejects by name. The encoder is
written from the same tables. Byte order and field extraction are decided here, once. -/

namespace Sys2Proof

/-! ### Fields and byte order -/

/-- `ReadWord`'s result: the first byte is the low byte (20_memory.md R52, R55). -/
def wordOfBytes (lo hi : Byte) : Word := hi ++ lo

def lowByte (v : Word) : Byte := v.extractLsb' 0 8

def highByte (v : Word) : Byte := v.extractLsb' 8 8

/-- `sext_16` (00_scope.md R14). -/
def sext16 (b : Byte) : Word := b.signExtend 16

/-- The ModRM fields (30_encoding.md R72). -/
def modField (m : Byte) : BitVec 2 := m.extractLsb' 6 2

def regField (m : Byte) : BitVec 3 := m.extractLsb' 3 3

def rmField (m : Byte) : BitVec 3 := m.extractLsb' 0 3

/-- The ModRM byte `mod reg rm`. -/
def modrmByte (mod : BitVec 2) (reg rm : BitVec 3) : Byte := mod ++ reg ++ rm

/-- The w bit, `op[0]` (R71). -/
def opWidth (op : Byte) : OpWidth := if op.getLsbD 0 then .word else .byte

def OpWidth.bit : OpWidth → Byte
  | .byte => 0
  | .word => 1

/-- `n` of 46_flag_unit.md R266: 8 for Byte, 16 for Word. -/
abbrev OpWidth.bits : OpWidth → Nat
  | .byte => 8
  | .word => 16

/-- `op[2:0]` (R71). -/
def opReg3 (op : Byte) : BitVec 3 := op.extractLsb' 0 3

/-- `Seg`: 00 ES, 01 CS, 10 SS, 11 DS (10_state.md R30). -/
def segOfCode (c : BitVec 2) : SegmentType :=
  if c = 0 then .ES else if c = 1 then .CS else if c = 2 then .SS else .DS

def SegmentType.code : SegmentType → BitVec 2
  | .ES => 0
  | .CS => 1
  | .SS => 2
  | .DS => 3

/-- `Seg(op[4:3])` (30_encoding.md R71, R94). -/
def opSeg (op : Byte) : SegmentType := segOfCode (op.extractLsb' 3 2)

def Data.width : Data → OpWidth
  | .byte _ => .byte
  | .word _ => .word

/-! ### Decoding -/

/-- Why a decode fails; offsets count from the first byte the decoder was given. -/
inductive DecodeError where
  /-- No table entry for the opcode byte (`subop = none`, R107) or for its group slot (R108). -/
  | unknownOpcode (op : Byte) (subop : Option (BitVec 3))
  /-- A read at offset `at'` found too few bytes (20_memory.md R54). -/
  | endOfStream (at' : Nat)
  /-- The byte after the opcode breaks a field check (R109) or is no 0x0A (R112). -/
  | invalidOperand (b : Byte)
  deriving DecidableEq, Repr

/-- Decodes the bytes after the opcode, and gives the instruction and the bytes left over. -/
abbrev Decoder := List Byte → Except DecodeError (Instr × List Byte)

/-- A decoder for one opcode byte. -/
abbrev OpDecoder := Byte → Decoder

def done (i : Instr) : Decoder := fun rest => .ok (i, rest)

/-- `ReadByte` (20_memory.md R51) at relative offset `at'`. -/
def readByte (at' : Nat) (k : Byte → Decoder) : Decoder
  | [] => .error (.endOfStream at')
  | b :: rest => k b rest

/-- `ReadWord` (R52) at relative offset `at'`: a lone byte is not consumed (R54). -/
def readWord (at' : Nat) (k : Word → Decoder) : Decoder
  | lo :: hi :: rest => k (wordOfBytes lo hi) rest
  | _ => .error (.endOfStream at')

/-- A data immediate of width `w` (30_encoding.md R80). -/
def readData (w : OpWidth) (at' : Nat) (k : Data → Decoder) : Decoder :=
  match w with
  | .byte => readByte at' fun b => k (.byte b)
  | .word => readWord at' fun v => k (.word v)

/-- A memory operand's displacement after ModRM byte `m`, whose `mod` is not 3 (R75 to R77). `k` is also given the
offset of the next byte. -/
def readMem (m : Byte) (k : Mem → Nat → Decoder) : Decoder :=
  if modField m = 0 then
    if rmField m = 6 then readWord 2 fun a => k (.direct a) 4 else k (.noDisp (rmField m)) 2
  else if modField m = 1 then readByte 2 fun b => k (.disp8 (rmField m) b) 3
  else readWord 2 fun v => k (.disp16 (rmField m) v) 4

/-- `ResolveRM` (R87): the r/m operand of ModRM byte `m`. -/
def readRM (m : Byte) (k : RM → Nat → Decoder) : Decoder :=
  if modField m = 3 then k (.reg (rmField m)) 2 else readMem m fun x at' => k (.mem x) at'

/-- A memory-only r/m operand: `mod = 3` fails before any displacement is read (R109). -/
def readMemOnly (m : Byte) (k : Mem → Decoder) : Decoder :=
  if modField m = 3 then fun _ => .error (.invalidOperand m) else readMem m fun x _ => k x

/-- No table entry (R107). -/
def unknown : OpDecoder := fun op _ => .error (.unknownOpcode op none)

/-- Recipe `-` (R103). -/
def bare (i : Instr) : OpDecoder := fun _ => done i

/-- Recipe `E,G` (R90). -/
def recEG (c : OpWidth → RM → BitVec 3 → Instr) : OpDecoder := fun op =>
  readByte 1 fun m => readRM m fun e _ => done (c (opWidth op) e (regField m))

/-- Recipe `G,E` (R90). -/
def recGE (c : OpWidth → BitVec 3 → RM → Instr) : OpDecoder := fun op =>
  readByte 1 fun m => readRM m fun e _ => done (c (opWidth op) (regField m) e)

/-- Recipe `ACC,I` (R91). -/
def recAccI (c : Data → Instr) : OpDecoder := fun op => readData (opWidth op) 1 fun d => done (c d)

/-- A group (R89): the slot of `reg`, or `UnknownOpcode` with that `reg` (R108). A slot is given the opcode and the
ModRM byte. -/
def group (slots : List (Option (Byte → Byte → Decoder))) : OpDecoder := fun op =>
  readByte 1 fun m =>
    match slots.getD (regField m).toNat none with
    | none => fun _ => .error (.unknownOpcode op (some (regField m)))
    | some slot => slot op m

/-- Group slot with recipe `E` (R97). -/
def slotE (c : OpWidth → RM → Instr) : Byte → Byte → Decoder := fun op m =>
  readRM m fun e _ => done (c (opWidth op) e)

/-- Group slot with recipe `M` (R97). -/
def slotM (c : Mem → Instr) : Byte → Byte → Decoder := fun _ m => readMemOnly m fun x => done (c x)

/-- Group slot with recipe `E,I` (R92). -/
def slotEI (c : RM → Data → Instr) : Byte → Byte → Decoder := fun op m =>
  readRM m fun e at' => readData (opWidth op) at' fun d => done (c e d)

/-- Group slot with recipe `E` and one byte after it: 82 (R92) and 83 (R81). -/
def slotEByte (c : RM → Byte → Instr) : Byte → Byte → Decoder := fun _ m =>
  readRM m fun e at' => readByte at' fun b => done (c e b)

/-- Recipe `G,M` (R100). -/
def recGM (c : BitVec 3 → Mem → Instr) : OpDecoder := fun _ =>
  readByte 1 fun m => readMemOnly m fun x => done (c (regField m) x)

/-- Recipe `Ew,S` (R99): `reg >= 4` fails (R109). -/
def recEwS : OpDecoder := fun _ => readByte 1 fun m =>
  if (regField m).getLsbD 2 then fun _ => .error (.invalidOperand m)
  else readRM m fun e _ => done (.mov (.ewS e (segOfCode ((regField m).extractLsb' 0 2))))

/-- Recipe `S,Ew` (R99): `reg >= 4` and `reg = 1` fail (R109). -/
def recSEw : OpDecoder := fun _ => readByte 1 fun m =>
  if (regField m).getLsbD 2 ∨ regField m = 1 then fun _ => .error (.invalidOperand m)
  else readRM m fun e _ => done (.mov (.sEw (segOfCode ((regField m).extractLsb' 0 2)) e))

/-- Recipe `REG16@op` (R93). -/
def recReg (c : BitVec 3 → Instr) : OpDecoder := fun op => done (c (opReg3 op))

/-- Recipes `REG8@op,I` and `REG16@op,I` (R93): the width is `op[3]`. -/
def recRegI : OpDecoder := fun op =>
  readData (if op.getLsbD 3 then .word else .byte) 1 fun d => done (.mov (.regI (opReg3 op) d))

/-- Recipe `SREG@op` (R94). -/
def recSreg (c : SegmentType → Instr) : OpDecoder := fun op => done (c (opSeg op))

/-- One byte after the opcode: `REL8` (R95), `IB_INT` (R115). -/
def recByte (c : Byte → Instr) : OpDecoder := fun _ => readByte 1 fun b => done (c b)

/-- One word after the opcode: `REL16` (R95), `IW_STACK` (R115). -/
def recWord (c : Word → Instr) : OpDecoder := fun _ => readWord 1 fun v => done (c v)

/-- Recipe `FAR` (R96): the offset word, then the segment word. -/
def recFar (c : Word → Word → Instr) : OpDecoder := fun _ =>
  readWord 1 fun off => readWord 3 fun seg => done (c off seg)

/-- Recipes `ACC,MOFFS` and `MOFFS,ACC` (R101). -/
def recMoffs (c : OpWidth → Word → Instr) : OpDecoder := fun op => readWord 1 fun a => done (c (opWidth op) a)

/-- Recipes `ACC,PORT` and `PORT,ACC` (R102). -/
def recPort (c : OpWidth → Byte → Instr) : OpDecoder := fun op => readByte 1 fun b => done (c (opWidth op) b)

/-- Recipes `ACC,DX` and `DX,ACC` (R102). -/
def recDx (c : OpWidth → Instr) : OpDecoder := fun op => done (c (opWidth op))

/-- Recipe `BASE10` (R112): the byte must be 0x0A. -/
def recBase10 (i : Instr) : OpDecoder := fun _ => readByte 1 fun b =>
  if b = 0x0A then done i else fun _ => .error (.invalidOperand b)

/-- Recipe `ESC` (R111): `code = op[2:0] : reg`. -/
def recEsc : OpDecoder := fun op =>
  readByte 1 fun m => readRM m fun e _ => done (.esc (opReg3 op ++ regField m) e)

/-- The opcodes `k+0 .. k+5` of one ALU instruction (41_arithmetic.md). -/
def aluRow (c : AluForm → Instr) : List OpDecoder :=
  [recEG fun w e g => c (.eg w e g), recEG fun w e g => c (.eg w e g),
   recGE fun w g e => c (.ge w g e), recGE fun w g e => c (.ge w g e),
   recAccI fun d => c (.accI d), recAccI fun d => c (.accI d)]

/-- Group 1 (R114): slots ADD OR ADC SBB AND SUB XOR CMP, for a recipe `r`. -/
def group1 (r : (AluForm → Instr) → Byte → Byte → Decoder) : OpDecoder :=
  group [some (r .add), some (r .or), some (r .adc), some (r .sbb), some (r .and), some (r .sub), some (r .xor),
    some (r .cmp)]

def group1EI : OpDecoder := group1 fun c => slotEI fun e d => c (.eI e d)

def group1EI82 : OpDecoder := group1 fun c => slotEByte fun e b => c (.eI82 e b)

def group1EIs : OpDecoder := group1 fun c => slotEByte fun e b => c (.eIs e b)

/-- Group 2 (R114): slot 6 has no entry (R108). -/
def group2 (n : ShiftCount) : OpDecoder :=
  group [some (slotE (.rol n)), some (slotE (.ror n)), some (slotE (.rcl n)), some (slotE (.rcr n)),
    some (slotE (.shl n)), some (slotE (.shr n)), none, some (slotE (.sar n))]

/-- Group 3 (R114): slot 1 has no entry (R108). -/
def group3 : OpDecoder :=
  group [some (slotEI fun e d => .test (.eI e d)), none, some (slotE .not), some (slotE .neg), some (slotE .mul),
    some (slotE .imul), some (slotE .div), some (slotE .idiv)]

/-- Group 4 (R114). -/
def group4 : OpDecoder :=
  group [some (slotE fun w e => .inc (.rm w e)), some (slotE fun w e => .dec (.rm w e))]

/-- Group 5 (R114): slot 7 has no entry (R108). -/
def group5 : OpDecoder :=
  group [some (slotE fun w e => .inc (.rm w e)), some (slotE fun w e => .dec (.rm w e)),
    some (slotE fun _ e => .call (.rm e)), some (slotM fun m => .callf (.mem m)),
    some (slotE fun _ e => .jmp (.rm e)), some (slotM fun m => .jmpf (.mem m)),
    some (slotE fun _ e => .push (.rm e)), none]

/-- Group 8F (R114): only slot 0. -/
def group8F : OpDecoder := group [some (slotE fun _ e => .pop (.rm e))]

/-- Group C6 (R114): only slot 0. -/
def groupC6 : OpDecoder := group [some (slotEI fun e d => .mov (.eI e d))]

/-- Opcodes 00 to 3F (R113). -/
def opcodes00 : List OpDecoder :=
  aluRow .add ++ [recSreg fun s => .push (.sreg s), recSreg fun s => .pop (.sreg s)] ++
  aluRow .or ++ [recSreg fun s => .push (.sreg s), unknown] ++
  aluRow .adc ++ [recSreg fun s => .push (.sreg s), recSreg fun s => .pop (.sreg s)] ++
  aluRow .sbb ++ [recSreg fun s => .push (.sreg s), recSreg fun s => .pop (.sreg s)] ++
  aluRow .and ++ [bare .prefixES, bare .daa] ++
  aluRow .sub ++ [bare .prefixCS, bare .das] ++
  aluRow .xor ++ [bare .prefixSS, bare .aaa] ++
  aluRow .cmp ++ [bare .prefixDS, bare .aas]

/-- Opcodes 40 to 7F (R113). -/
def opcodes40 : List OpDecoder :=
  List.replicate 8 (recReg fun r => .inc (.reg16 r)) ++ List.replicate 8 (recReg fun r => .dec (.reg16 r)) ++
  List.replicate 8 (recReg fun r => .push (.reg16 r)) ++ List.replicate 8 (recReg fun r => .pop (.reg16 r)) ++
  List.replicate 16 unknown ++
  [recByte .jo, recByte .jno, recByte .jb, recByte .jae, recByte .je, recByte .jne, recByte .jbe, recByte .ja] ++
  [recByte .js, recByte .jns, recByte .jp, recByte .jnp, recByte .jl, recByte .jge, recByte .jle, recByte .jg]

/-- Opcodes 80 to BF (R113). -/
def opcodes80 : List OpDecoder :=
  [group1EI, group1EI, group1EI82, group1EIs, recEG fun w e g => .test (.eg w e g), recEG fun w e g => .test (.eg w e g),
   recEG fun w e g => .xchg (.eg w e g), recEG fun w e g => .xchg (.eg w e g)] ++
  [recEG fun w e g => .mov (.eg w e g), recEG fun w e g => .mov (.eg w e g),
   recGE fun w g e => .mov (.ge w g e), recGE fun w g e => .mov (.ge w g e), recEwS, recGM .lea, recSEw, group8F] ++
  [bare .nop] ++ List.replicate 7 (recReg fun r => .xchg (.ax r)) ++
  [bare .cbw, bare .cwd, recFar fun o s => .callf (.far o s), bare .wait, bare .pushf, bare .popf, bare .sahf,
   bare .lahf] ++
  [recMoffs fun w a => .mov (.accMoffs w a), recMoffs fun w a => .mov (.accMoffs w a),
   recMoffs fun w a => .mov (.moffsAcc w a), recMoffs fun w a => .mov (.moffsAcc w a),
   bare .movsb, bare .movsw, bare .cmpsb, bare .cmpsw] ++
  [recAccI fun d => .test (.accI d), recAccI fun d => .test (.accI d), bare .stosb, bare .stosw, bare .lodsb,
   bare .lodsw, bare .scasb, bare .scasw] ++
  List.replicate 16 recRegI

/-- Opcodes C0 to FF (R113). -/
def opcodesC0 : List OpDecoder :=
  [unknown, unknown, recWord fun n => .ret (.adjust n), bare (.ret .plain), recGM .les, recGM .lds, groupC6, groupC6] ++
  [unknown, unknown, recWord fun n => .retf (.adjust n), bare (.retf .plain), bare .int3, recByte .int, bare .into,
   bare .iret] ++
  [group2 .one, group2 .one, group2 .cl, group2 .cl, recBase10 .aam, recBase10 .aad, unknown, bare .xlat] ++
  List.replicate 8 recEsc ++
  [recByte .loopnz, recByte .loopz, recByte .loop, recByte .jcxz, recPort fun w b => .inPort (.imm w b),
   recPort fun w b => .inPort (.imm w b), recPort fun w b => .outPort (.imm w b),
   recPort fun w b => .outPort (.imm w b)] ++
  [recWord fun d => .call (.rel16 d), recWord fun d => .jmp (.rel16 d), recFar fun o s => .jmpf (.far o s),
   recByte fun d => .jmp (.rel8 d), recDx fun w => .inPort (.dx w), recDx fun w => .inPort (.dx w),
   recDx fun w => .outPort (.dx w), recDx fun w => .outPort (.dx w)] ++
  [bare .lock, unknown, bare .repne, bare .rep, bare .hlt, bare .cmc, group3, group3] ++
  [bare .clc, bare .stc, bare .cli, bare .sti, bare .cld, bare .std, group4, group5]

/-- The opcode map (R113), one decoder per byte value. -/
def opcodeMap : List OpDecoder := opcodes00 ++ opcodes40 ++ opcodes80 ++ opcodesC0

/-- Decodes one unit of the stream: a prefix byte, or an instruction from its opcode byte on. Total on any bytes. -/
def decode : List Byte → Except DecodeError (Instr × List Byte)
  | [] => .error (.endOfStream 0)
  | op :: rest => (opcodeMap.getD op.toNat unknown) op rest

/-! ### Encoding -/

def wordBytes (v : Word) : List Byte := [lowByte v, highByte v]

def Data.bytes : Data → List Byte
  | .byte b => [b]
  | .word v => wordBytes v

/-- The `mod` field of a memory operand (R75, R77). -/
def Mem.mod : Mem → BitVec 2
  | .direct _ => 0
  | .noDisp _ => 0
  | .disp8 _ _ => 1
  | .disp16 _ _ => 2

/-- The `rm` field of a memory operand (R75, R76). -/
def Mem.rm : Mem → BitVec 3
  | .direct _ => 6
  | .noDisp rm => rm
  | .disp8 rm _ => rm
  | .disp16 rm _ => rm

def Mem.dispBytes : Mem → List Byte
  | .direct a => wordBytes a
  | .noDisp _ => []
  | .disp8 _ b => [b]
  | .disp16 _ v => wordBytes v

def RM.mod : RM → BitVec 2
  | .reg _ => 3
  | .mem m => m.mod

def RM.rm : RM → BitVec 3
  | .reg r => r
  | .mem m => m.rm

def RM.dispBytes : RM → List Byte
  | .reg _ => []
  | .mem m => m.dispBytes

/-- The ModRM byte and displacement of an r/m operand beside the field `reg` (R70). -/
def RM.bytes (reg : BitVec 3) (e : RM) : List Byte := modrmByte e.mod reg e.rm :: e.dispBytes

/-- The opcode byte of an ALU instruction with base `k` (41_arithmetic.md). -/
def AluForm.opcode (k : Byte) : AluForm → Byte
  | .eg w _ _ => k + w.bit
  | .ge w _ _ => k + 2 + w.bit
  | .accI d => k + 4 + d.width.bit
  | .eI _ d => 0x80 + d.width.bit
  | .eI82 _ _ => 0x82
  | .eIs _ _ => 0x83

def AluForm.encode (k : Byte) (slot : BitVec 3) (f : AluForm) : List Byte :=
  f.opcode k ::
    match f with
    | .eg _ e g => e.bytes g
    | .ge _ g e => e.bytes g
    | .accI d => d.bytes
    | .eI e d => e.bytes slot ++ d.bytes
    | .eI82 e b => e.bytes slot ++ [b]
    | .eIs e b => e.bytes slot ++ [b]

def MovForm.opcode : MovForm → Byte
  | .eg w _ _ => 0x88 + w.bit
  | .ge w _ _ => 0x8A + w.bit
  | .eI _ d => 0xC6 + d.width.bit
  | .regI r (.byte _) => 0b10110#5 ++ r
  | .regI r (.word _) => 0b10111#5 ++ r
  | .accMoffs w _ => 0xA0 + w.bit
  | .moffsAcc w _ => 0xA2 + w.bit
  | .ewS _ _ => 0x8C
  | .sEw _ _ => 0x8E

/-- The `reg` field that names a segment register (R99). -/
def SegmentType.reg (s : SegmentType) : BitVec 3 := 0#1 ++ s.code

def MovForm.encode (f : MovForm) : List Byte :=
  f.opcode ::
    match f with
    | .eg _ e g => e.bytes g
    | .ge _ g e => e.bytes g
    | .eI e d => e.bytes 0 ++ d.bytes
    | .regI _ d => d.bytes
    | .accMoffs _ a => wordBytes a
    | .moffsAcc _ a => wordBytes a
    | .ewS e s => e.bytes s.reg
    | .sEw s e => e.bytes s.reg

def StackForm.opcodePush : StackForm → Byte
  | .reg16 r => 0b01010#5 ++ r
  | .sreg s => 0b000#3 ++ s.code ++ 0b110#3
  | .rm _ => 0xFF

def StackForm.encodePush (f : StackForm) : List Byte :=
  f.opcodePush ::
    match f with
    | .reg16 _ => []
    | .sreg _ => []
    | .rm e => e.bytes 6

def StackForm.opcodePop : StackForm → Byte
  | .reg16 r => 0b01011#5 ++ r
  | .sreg s => 0b000#3 ++ s.code ++ 0b111#3
  | .rm _ => 0x8F

def StackForm.encodePop (f : StackForm) : List Byte :=
  f.opcodePop ::
    match f with
    | .reg16 _ => []
    | .sreg _ => []
    | .rm e => e.bytes 0

def XchgForm.opcode : XchgForm → Byte
  | .eg w _ _ => 0x86 + w.bit
  | .ax r => 0b10010#5 ++ r

def XchgForm.encode (f : XchgForm) : List Byte :=
  f.opcode ::
    match f with
    | .eg _ e g => e.bytes g
    | .ax _ => []

/-- `k` is the opcode of the byte form with a port number, `kDx` that of the byte form with DX. -/
def PortForm.opcode (k kDx : Byte) : PortForm → Byte
  | .imm w _ => k + w.bit
  | .dx w => kDx + w.bit

def PortForm.encode (k kDx : Byte) (f : PortForm) : List Byte :=
  f.opcode k kDx ::
    match f with
    | .imm _ b => [b]
    | .dx _ => []

/-- `k` is the first of the eight register opcodes. -/
def IncDecForm.opcode (k : Byte) : IncDecForm → Byte
  | .reg16 r => k + r.setWidth 8
  | .rm w _ => 0xFE + w.bit

def IncDecForm.encode (k : Byte) (slot : BitVec 3) (f : IncDecForm) : List Byte :=
  f.opcode k ::
    match f with
    | .reg16 _ => []
    | .rm _ e => e.bytes slot

def TestForm.opcode : TestForm → Byte
  | .eg w _ _ => 0x84 + w.bit
  | .accI d => 0xA8 + d.width.bit
  | .eI _ d => 0xF6 + d.width.bit

def TestForm.encode (f : TestForm) : List Byte :=
  f.opcode ::
    match f with
    | .eg _ e g => e.bytes g
    | .accI d => d.bytes
    | .eI e d => e.bytes 0 ++ d.bytes

/-- D0, D1 shift by one, D2, D3 by CL (R98). -/
def ShiftCount.opcode (w : OpWidth) : ShiftCount → Byte
  | .one => 0xD0 + w.bit
  | .cl => 0xD2 + w.bit

def CallForm.opcode : CallForm → Byte
  | .rel16 _ => 0xE8
  | .rm _ => 0xFF

def CallForm.encode (f : CallForm) : List Byte :=
  f.opcode ::
    match f with
    | .rel16 d => wordBytes d
    | .rm e => e.bytes 2

def JmpForm.opcode : JmpForm → Byte
  | .rel8 _ => 0xEB
  | .rel16 _ => 0xE9
  | .rm _ => 0xFF

def JmpForm.encode (f : JmpForm) : List Byte :=
  f.opcode ::
    match f with
    | .rel8 d => [d]
    | .rel16 d => wordBytes d
    | .rm e => e.bytes 4

def FarForm.opcode (k : Byte) : FarForm → Byte
  | .far _ _ => k
  | .mem _ => 0xFF

def FarForm.encode (k : Byte) (slot : BitVec 3) (f : FarForm) : List Byte :=
  f.opcode k ::
    match f with
    | .far off seg => wordBytes off ++ wordBytes seg
    | .mem m => (RM.mem m).bytes slot

/-- `k` takes the stack adjust, `k + 1` has no operand (R115). -/
def RetForm.opcode (k : Byte) : RetForm → Byte
  | .plain => k + 1
  | .adjust _ => k

def RetForm.encode (k : Byte) (f : RetForm) : List Byte :=
  f.opcode k ::
    match f with
    | .plain => []
    | .adjust n => wordBytes n

/-- D8 to DF: the high three bits of the escape code (R111). -/
def escOpcode (code : BitVec 6) : Byte := 0b11011#5 ++ code.extractLsb' 3 3

/-- The bytes of an instruction (30_encoding.md R70, R113, R114). -/
def encode : Instr → List Byte
  | .prefixES => [0x26]
  | .prefixCS => [0x2E]
  | .prefixSS => [0x36]
  | .prefixDS => [0x3E]
  | .mov f => f.encode
  | .push f => f.encodePush
  | .pop f => f.encodePop
  | .xchg f => f.encode
  | .inPort f => f.encode 0xE4 0xEC
  | .outPort f => f.encode 0xE6 0xEE
  | .xlat => [0xD7]
  | .lea g m => 0x8D :: (RM.mem m).bytes g
  | .lds g m => 0xC5 :: (RM.mem m).bytes g
  | .les g m => 0xC4 :: (RM.mem m).bytes g
  | .lahf => [0x9F]
  | .sahf => [0x9E]
  | .pushf => [0x9C]
  | .popf => [0x9D]
  | .add f => f.encode 0x00 0
  | .adc f => f.encode 0x10 2
  | .inc f => f.encode 0x40 0
  | .aaa => [0x37]
  | .daa => [0x27]
  | .sub f => f.encode 0x28 5
  | .sbb f => f.encode 0x18 3
  | .dec f => f.encode 0x48 1
  | .neg w e => (0xF6 + w.bit) :: e.bytes 3
  | .cmp f => f.encode 0x38 7
  | .aas => [0x3F]
  | .das => [0x2F]
  | .mul w e => (0xF6 + w.bit) :: e.bytes 4
  | .imul w e => (0xF6 + w.bit) :: e.bytes 5
  | .aam => [0xD4, 0x0A]
  | .div w e => (0xF6 + w.bit) :: e.bytes 6
  | .idiv w e => (0xF6 + w.bit) :: e.bytes 7
  | .aad => [0xD5, 0x0A]
  | .cbw => [0x98]
  | .cwd => [0x99]
  | .not w e => (0xF6 + w.bit) :: e.bytes 2
  | .shl n w e => n.opcode w :: e.bytes 4
  | .shr n w e => n.opcode w :: e.bytes 5
  | .sar n w e => n.opcode w :: e.bytes 7
  | .rol n w e => n.opcode w :: e.bytes 0
  | .ror n w e => n.opcode w :: e.bytes 1
  | .rcl n w e => n.opcode w :: e.bytes 2
  | .rcr n w e => n.opcode w :: e.bytes 3
  | .and f => f.encode 0x20 4
  | .test f => f.encode
  | .or f => f.encode 0x08 1
  | .xor f => f.encode 0x30 6
  | .rep => [0xF3]
  | .repne => [0xF2]
  | .movsb => [0xA4]
  | .movsw => [0xA5]
  | .cmpsb => [0xA6]
  | .cmpsw => [0xA7]
  | .scasb => [0xAE]
  | .scasw => [0xAF]
  | .lodsb => [0xAC]
  | .lodsw => [0xAD]
  | .stosb => [0xAA]
  | .stosw => [0xAB]
  | .call f => f.encode
  | .callf f => f.encode 0x9A 3
  | .jmp f => f.encode
  | .jmpf f => f.encode 0xEA 5
  | .ret f => f.encode 0xC2
  | .retf f => f.encode 0xCA
  | .jo d => [0x70, d]
  | .jno d => [0x71, d]
  | .jb d => [0x72, d]
  | .jae d => [0x73, d]
  | .je d => [0x74, d]
  | .jne d => [0x75, d]
  | .jbe d => [0x76, d]
  | .ja d => [0x77, d]
  | .js d => [0x78, d]
  | .jns d => [0x79, d]
  | .jp d => [0x7A, d]
  | .jnp d => [0x7B, d]
  | .jl d => [0x7C, d]
  | .jge d => [0x7D, d]
  | .jle d => [0x7E, d]
  | .jg d => [0x7F, d]
  | .loop d => [0xE2, d]
  | .loopz d => [0xE1, d]
  | .loopnz d => [0xE0, d]
  | .jcxz d => [0xE3, d]
  | .int n => [0xCD, n]
  | .int3 => [0xCC]
  | .into => [0xCE]
  | .iret => [0xCF]
  | .clc => [0xF8]
  | .cmc => [0xF5]
  | .stc => [0xF9]
  | .cld => [0xFC]
  | .std => [0xFD]
  | .cli => [0xFA]
  | .sti => [0xFB]
  | .hlt => [0xF4]
  | .wait => [0x9B]
  | .esc code e => escOpcode code :: e.bytes (code.extractLsb' 0 3)
  | .lock => [0xF0]
  | .nop => [0x90]

/-! ### The opcode table's words -/

/-- The longest instruction without prefix bytes is 6 bytes (30_encoding.md R70). -/
def maxInstrBytes : Nat := 6

/-- The bytes of a word numbered as opcode_table.json numbers it: a row's pattern is read as one number with the opcode
byte first, so the FIRST byte of the stream is the pattern's most significant byte (its `opcode` field stands at bits
15:8 of a two-byte row). Operand bytes beyond the pattern are zero. -/
def tableBytes (nbits w : Nat) : List Byte :=
  (List.range (nbits / 8)).map (fun k => BitVec.ofNat 8 (w >>> (nbits - 8 * (k + 1)))) ++
    List.replicate (maxInstrBytes - nbits / 8) 0

/-- The instruction the decoder reads from a word of opcode_table.json. -/
def decodeTableWord (nbits w : Nat) : Option Instr :=
  match decode (tableBytes nbits w) with
  | .ok (i, _) => some i
  | .error _ => none

end Sys2Proof
end

