-- ==== Sys2Proof/Machine/Operands.lean ====
section
/-! DEFINITION. Operand forms: from the fields of an encoded instruction to the operand values of the data model
(30_encoding.md R74 to R103; 10_state.md R28 to R35), and the readings of an immediate and a displacement. -/

namespace Sys2Proof.Machine

/-- The byte registers by field (10_state.md R28). -/
def reg8 (f : BitVec 3) : RegisterType :=
  [RegisterType.AL, .CL, .DL, .BL, .AH, .CH, .DH, .BH].getD f.toNat .AL

/-- The word registers by field (R28). -/
def reg16 (f : BitVec 3) : RegisterType :=
  [RegisterType.AX, .CX, .DX, .BX, .SP, .BP, .SI, .DI].getD f.toNat .AX

/-- `RegName(w, field)` (R28, R29). -/
def regName (w : OpWidth) (f : BitVec 3) : RegisterType :=
  match w with
  | .byte => reg8 f
  | .word => reg16 f

/-- A segment register as a register name (R30). -/
def segName : SegmentType → RegisterType
  | .ES => .ES
  | .CS => .CS
  | .SS => .SS
  | .DS => .DS

/-- `EAFORM[rm]` (30_encoding.md R76). -/
def eaForm (rm : BitVec 3) : EAForm :=
  [EAForm.BX_SI, .BX_DI, .BP_SI, .BP_DI, .SI, .DI, .BP, .BX].getD rm.toNat .BX

/-- The base register of a form (10_state.md R35). -/
def EAForm.base : EAForm → Option RegisterType
  | .BX_SI => some .BX
  | .BX_DI => some .BX
  | .BP_SI => some .BP
  | .BP_DI => some .BP
  | .SI => none
  | .DI => none
  | .BP => some .BP
  | .BX => some .BX
  | .DIRECT => none

/-- The index register of a form (R35). -/
def EAForm.index : EAForm → Option RegisterType
  | .BX_SI => some .SI
  | .BX_DI => some .DI
  | .BP_SI => some .SI
  | .BP_DI => some .DI
  | .SI => some .SI
  | .DI => some .DI
  | .BP => none
  | .BX => none
  | .DIRECT => none

/-- The instruction width of a w bit (R31). -/
def dataWidth : OpWidth → DataWidth
  | .byte => .byte
  | .word => .word

/-- The displacement of a memory operand, a disp8 sign-extended (30_encoding.md R75, R77 to R79). -/
def memDisp : Mem → Disp
  | .direct a => .disp16 a
  | .noDisp _ => .noDisp
  | .disp8 _ b => .disp8 (sext16 b)
  | .disp16 _ v => .disp16 v

/-- The form of a memory operand (R75, R76). -/
def memEA : Mem → EAForm
  | .direct _ => .DIRECT
  | .noDisp rm => eaForm rm
  | .disp8 rm _ => eaForm rm
  | .disp16 rm _ => eaForm rm

/-- A memory operand under the override in force (R75, R77, R86). -/
def memOperand (seg : Option SegmentType) (m : Mem) : Operand := .memory ⟨memEA m, memDisp m, seg⟩

/-- The r/m operand `E` at width `w` (R74 to R77). -/
def rmOperand (w : OpWidth) (seg : Option SegmentType) : RM → Operand
  | .reg r => .register (regName w r)
  | .mem m => memOperand seg m

/-- `Reg_W(field)` as an operand (R90, R91). -/
def regOperand (w : OpWidth) (f : BitVec 3) : Operand := .register (regName w f)

/-- A segment register as an operand (R94, R99). -/
def segOperand (s : SegmentType) : Operand := .register (segName s)

/-- The direct-address operand of A0 to A3 (R101). -/
def moffsOperand (seg : Option SegmentType) (a : Word) : Operand := .memory ⟨.DIRECT, .disp16 a, seg⟩

/-- A plain data immediate (R80). -/
def dataImm : Data → Imm
  | .byte b => .byte b .none
  | .word v => .word v .none

/-- The sign-extended imm8 of 83 (R81). -/
def sextImm (b : Byte) : Imm := .word (sext16 b) .none

/-- The count operand of a shift or rotate (R98). -/
def countOperand : ShiftCount → Operand
  | .one => .immediate (.byte 0x01 .implicitOne)
  | .cl => .register .CL

/-- The escape code operand (R111), 6 bits in a byte. -/
def escImm (code : BitVec 6) : Imm := .byte (code.setWidth 8) .escapeCode

/-- The role of an immediate. -/
def Imm.flag : Imm → ImmediateFlag
  | .byte _ f => f
  | .word _ f => f

/-- `uint(bits)` (10_state.md R33). -/
def Imm.uint : Imm → Nat
  | .byte b _ => b.toNat
  | .word v _ => v.toNat

/-- `sint(bits)` (R33). -/
def Imm.sint : Imm → Int
  | .byte b _ => b.toInt
  | .word v _ => v.toInt

/-- The 16-bit value of a displacement, 0 for `NoDisp` (R34; 20_memory.md R58). -/
def Disp.value : Disp → Word
  | .noDisp => 0
  | .disp8 v => v
  | .disp16 v => v

/-- The numeric codes of the error kinds (60_exceptions.md R320). -/
def ErrorKind.code : ErrorKind → Nat
  | .unknownOpcode => 0
  | .unexpectedEndOfStream => 1
  | .invalidOperandEncoding => 2

end Sys2Proof.Machine
end

