-- ==== Sys2Proof/Machine/Tables.lean ====
section
/-! DEFINITION. `PRIMARY` (30_encoding.md R113) and `GROUP` (R114), row by row as the spec prints them. -/

namespace Sys2Proof.Machine

/-- Opcodes 00 to 0F (R113). -/
def primaryRow0 : List TableEntry :=
  [.direct .ADD .byte .eg, .direct .ADD .word .eg, .direct .ADD .byte .ge, .direct .ADD .word .ge,
   .direct .ADD .byte .accI, .direct .ADD .word .accI, .direct .PUSH .word .sreg, .direct .POP .word .sreg,
   .direct .OR .byte .eg, .direct .OR .word .eg, .direct .OR .byte .ge, .direct .OR .word .ge,
   .direct .OR .byte .accI, .direct .OR .word .accI, .direct .PUSH .word .sreg, .unknown]

/-- Opcodes 10 to 1F (R113). -/
def primaryRow1 : List TableEntry :=
  [.direct .ADC .byte .eg, .direct .ADC .word .eg, .direct .ADC .byte .ge, .direct .ADC .word .ge,
   .direct .ADC .byte .accI, .direct .ADC .word .accI, .direct .PUSH .word .sreg, .direct .POP .word .sreg,
   .direct .SBB .byte .eg, .direct .SBB .word .eg, .direct .SBB .byte .ge, .direct .SBB .word .ge,
   .direct .SBB .byte .accI, .direct .SBB .word .accI, .direct .PUSH .word .sreg, .direct .POP .word .sreg]

/-- Opcodes 20 to 2F (R113). -/
def primaryRow2 : List TableEntry :=
  [.direct .AND .byte .eg, .direct .AND .word .eg, .direct .AND .byte .ge, .direct .AND .word .ge,
   .direct .AND .byte .accI, .direct .AND .word .accI, .segPrefix .ES, .direct .DAA .none .bare,
   .direct .SUB .byte .eg, .direct .SUB .word .eg, .direct .SUB .byte .ge, .direct .SUB .word .ge,
   .direct .SUB .byte .accI, .direct .SUB .word .accI, .segPrefix .CS, .direct .DAS .none .bare]

/-- Opcodes 30 to 3F (R113). -/
def primaryRow3 : List TableEntry :=
  [.direct .XOR .byte .eg, .direct .XOR .word .eg, .direct .XOR .byte .ge, .direct .XOR .word .ge,
   .direct .XOR .byte .accI, .direct .XOR .word .accI, .segPrefix .SS, .direct .AAA .none .bare,
   .direct .CMP .byte .eg, .direct .CMP .word .eg, .direct .CMP .byte .ge, .direct .CMP .word .ge,
   .direct .CMP .byte .accI, .direct .CMP .word .accI, .segPrefix .DS, .direct .AAS .none .bare]

/-- Opcodes 40 to 4F (R113). -/
def primaryRow4 : List TableEntry :=
  [.direct .INC .word .reg16, .direct .INC .word .reg16, .direct .INC .word .reg16,
   .direct .INC .word .reg16, .direct .INC .word .reg16, .direct .INC .word .reg16,
   .direct .INC .word .reg16, .direct .INC .word .reg16, .direct .DEC .word .reg16,
   .direct .DEC .word .reg16, .direct .DEC .word .reg16, .direct .DEC .word .reg16,
   .direct .DEC .word .reg16, .direct .DEC .word .reg16, .direct .DEC .word .reg16,
   .direct .DEC .word .reg16]

/-- Opcodes 50 to 5F (R113). -/
def primaryRow5 : List TableEntry :=
  [.direct .PUSH .word .reg16, .direct .PUSH .word .reg16, .direct .PUSH .word .reg16,
   .direct .PUSH .word .reg16, .direct .PUSH .word .reg16, .direct .PUSH .word .reg16,
   .direct .PUSH .word .reg16, .direct .PUSH .word .reg16, .direct .POP .word .reg16,
   .direct .POP .word .reg16, .direct .POP .word .reg16, .direct .POP .word .reg16,
   .direct .POP .word .reg16, .direct .POP .word .reg16, .direct .POP .word .reg16,
   .direct .POP .word .reg16]

/-- Opcodes 60 to 6F (R113). -/
def primaryRow6 : List TableEntry :=
  [.unknown, .unknown, .unknown, .unknown, .unknown, .unknown, .unknown, .unknown, .unknown, .unknown,
   .unknown, .unknown, .unknown, .unknown, .unknown, .unknown]

/-- Opcodes 70 to 7F (R113). -/
def primaryRow7 : List TableEntry :=
  [.direct .JO .none .rel8, .direct .JNO .none .rel8, .direct .JB .none .rel8, .direct .JAE .none .rel8,
   .direct .JE .none .rel8, .direct .JNE .none .rel8, .direct .JBE .none .rel8, .direct .JA .none .rel8,
   .direct .JS .none .rel8, .direct .JNS .none .rel8, .direct .JP .none .rel8, .direct .JNP .none .rel8,
   .direct .JL .none .rel8, .direct .JGE .none .rel8, .direct .JLE .none .rel8, .direct .JG .none .rel8]

/-- Opcodes 80 to 8F (R113). -/
def primaryRow8 : List TableEntry :=
  [.group .g1 .byte .eI, .group .g1 .word .eI, .group .g1 .byte .eI, .group .g1 .word .eIs,
   .direct .TEST .byte .eg, .direct .TEST .word .eg, .direct .XCHG .byte .eg, .direct .XCHG .word .eg,
   .direct .MOV .byte .eg, .direct .MOV .word .eg, .direct .MOV .byte .ge, .direct .MOV .word .ge,
   .direct .MOV .word .ewS, .direct .LEA .word .gM, .direct .MOV .word .sEw, .group .g8F .word .e]

/-- Opcodes 90 to 9F (R113). -/
def primaryRow9 : List TableEntry :=
  [.direct .NOP .none .bare, .direct .XCHG .word .axReg16, .direct .XCHG .word .axReg16,
   .direct .XCHG .word .axReg16, .direct .XCHG .word .axReg16, .direct .XCHG .word .axReg16,
   .direct .XCHG .word .axReg16, .direct .XCHG .word .axReg16, .direct .CBW .none .bare,
   .direct .CWD .none .bare, .direct .CALLF .none .far, .direct .WAIT .none .bare,
   .direct .PUSHF .none .bare, .direct .POPF .none .bare, .direct .SAHF .none .bare,
   .direct .LAHF .none .bare]

/-- Opcodes A0 to AF (R113). -/
def primaryRowA : List TableEntry :=
  [.direct .MOV .byte .accMoffs, .direct .MOV .word .accMoffs, .direct .MOV .byte .moffsAcc,
   .direct .MOV .word .moffsAcc, .direct .MOVSB .byte .bare, .direct .MOVSW .word .bare,
   .direct .CMPSB .byte .bare, .direct .CMPSW .word .bare, .direct .TEST .byte .accI,
   .direct .TEST .word .accI, .direct .STOSB .byte .bare, .direct .STOSW .word .bare,
   .direct .LODSB .byte .bare, .direct .LODSW .word .bare, .direct .SCASB .byte .bare,
   .direct .SCASW .word .bare]

/-- Opcodes B0 to BF (R113). -/
def primaryRowB : List TableEntry :=
  [.direct .MOV .byte .reg8I, .direct .MOV .byte .reg8I, .direct .MOV .byte .reg8I,
   .direct .MOV .byte .reg8I, .direct .MOV .byte .reg8I, .direct .MOV .byte .reg8I,
   .direct .MOV .byte .reg8I, .direct .MOV .byte .reg8I, .direct .MOV .word .reg16I,
   .direct .MOV .word .reg16I, .direct .MOV .word .reg16I, .direct .MOV .word .reg16I,
   .direct .MOV .word .reg16I, .direct .MOV .word .reg16I, .direct .MOV .word .reg16I,
   .direct .MOV .word .reg16I]

/-- Opcodes C0 to CF (R113). -/
def primaryRowC : List TableEntry :=
  [.unknown, .unknown, .direct .RET .none .iwStack, .direct .RET .none .bare, .direct .LES .word .gM,
   .direct .LDS .word .gM, .group .gC6 .byte .eI, .group .gC6 .word .eI, .unknown, .unknown,
   .direct .RETF .none .iwStack, .direct .RETF .none .bare, .direct .INT3 .none .bare,
   .direct .INT .none .ibInt, .direct .INTO .none .bare, .direct .IRET .none .bare]

/-- Opcodes D0 to DF (R113). -/
def primaryRowD : List TableEntry :=
  [.group .g2 .byte .eOne, .group .g2 .word .eOne, .group .g2 .byte .eCl, .group .g2 .word .eCl,
   .direct .AAM .none .base10, .direct .AAD .none .base10, .unknown, .direct .XLAT .none .bare,
   .direct .ESC .word .esc, .direct .ESC .word .esc, .direct .ESC .word .esc, .direct .ESC .word .esc,
   .direct .ESC .word .esc, .direct .ESC .word .esc, .direct .ESC .word .esc, .direct .ESC .word .esc]

/-- Opcodes E0 to EF (R113). -/
def primaryRowE : List TableEntry :=
  [.direct .LOOPNZ .none .rel8, .direct .LOOPZ .none .rel8, .direct .LOOP .none .rel8,
   .direct .JCXZ .none .rel8, .direct .IN .byte .accPort, .direct .IN .word .accPort,
   .direct .OUT .byte .portAcc, .direct .OUT .word .portAcc, .direct .CALL .none .rel16,
   .direct .JMP .none .rel16, .direct .JMPF .none .far, .direct .JMP .none .rel8, .direct .IN .byte .accDx,
   .direct .IN .word .accDx, .direct .OUT .byte .dxAcc, .direct .OUT .word .dxAcc]

/-- Opcodes F0 to FF (R113). -/
def primaryRowF : List TableEntry :=
  [.direct .LOCK .none .bare, .unknown, .direct .REPNE .none .bare, .direct .REP .none .bare,
   .direct .HLT .none .bare, .direct .CMC .none .bare, .group .g3 .byte .e, .group .g3 .word .e,
   .direct .CLC .none .bare, .direct .STC .none .bare, .direct .CLI .none .bare, .direct .STI .none .bare,
   .direct .CLD .none .bare, .direct .STD .none .bare, .group .g4 .byte .e, .group .g5 .word .e]

/-- The primary table (R113), in pieces. -/
def primaryTable : List TableEntry :=
  primaryRow0 ++ primaryRow1 ++ primaryRow2 ++ primaryRow3 ++ primaryRow4 ++ primaryRow5 ++ primaryRow6 ++
  primaryRow7 ++ primaryRow8 ++ primaryRow9 ++ primaryRowA ++ primaryRowB ++ primaryRowC ++ primaryRowD ++
  primaryRowE ++ primaryRowF

/-- `PRIMARY[op]` (R88). -/
def primary (op : Byte) : TableEntry := primaryTable.getD op.toNat .unknown

/-- Groups 1 and 2 take the recipe of the primary entry (R114). -/
def groupTypes : GroupId → List (Option InstructionType)
  | .g1 => [some .ADD, some .OR, some .ADC, some .SBB, some .AND, some .SUB, some .XOR, some .CMP]
  | .g2 => [some .ROL, some .ROR, some .RCL, some .RCR, some .SHL, some .SHR, none, some .SAR]
  | .g3 => [some .TEST, none, some .NOT, some .NEG, some .MUL, some .IMUL, some .DIV, some .IDIV]
  | .g4 => [some .INC, some .DEC, none, none, none, none, none, none]
  | .g5 => [some .INC, some .DEC, some .CALL, some .CALLF, some .JMP, some .JMPF, some .PUSH, none]
  | .g8F => [some .POP, none, none, none, none, none, none, none]
  | .gC6 => [some .MOV, none, none, none, none, none, none, none]

/-- The recipe of a slot (R114): only groups 3 and 5 differ from slot to slot. -/
def groupRecipe (g : GroupId) (column : Recipe) (reg : BitVec 3) : Recipe :=
  match g with
  | .g1 => column
  | .g2 => column
  | .g3 => if reg = 0 then .eI else .e
  | .g4 => .e
  | .g5 => if reg = 3 ∨ reg = 5 then .m else .e
  | .g8F => .e
  | .gC6 => column

/-- `GROUP[g][reg]` (R89, R114): the type and recipe of a slot, `none` where it has no entry (R108). -/
def groupSlot (g : GroupId) (column : Recipe) (reg : BitVec 3) : Option (InstructionType × Recipe) :=
  ((groupTypes g).getD reg.toNat none).map fun t => (t, groupRecipe g column reg)

/-- The recipes with a ModRM byte (R70: an E, M or G operand). -/
def Recipe.hasModRM : Recipe → Bool
  | .eg => true
  | .ge => true
  | .eI => true
  | .eIs => true
  | .e => true
  | .m => true
  | .eOne => true
  | .eCl => true
  | .ewS => true
  | .sEw => true
  | .gM => true
  | .esc => true
  | .accI => false
  | .reg16 => false
  | .axReg16 => false
  | .reg8I => false
  | .reg16I => false
  | .sreg => false
  | .rel8 => false
  | .rel16 => false
  | .far => false
  | .accMoffs => false
  | .moffsAcc => false
  | .accPort => false
  | .portAcc => false
  | .accDx => false
  | .dxAcc => false
  | .bare => false
  | .base10 => false
  | .iwStack => false
  | .ibInt => false

/-- An entry whose recipe, or whose group's recipes, have a ModRM byte (R70, R89). -/
def TableEntry.hasModRM : TableEntry → Bool
  | .unknown => false
  | .segPrefix _ => false
  | .direct _ _ recipe => recipe.hasModRM
  | .group _ _ _ => true

/-- The canonical upper-case name of an instruction type (47_renderer.md R291). -/
def InstructionType.name : InstructionType → String
  | .ADD => "ADD" | .OR => "OR" | .ADC => "ADC" | .SBB => "SBB" | .AND => "AND" | .SUB => "SUB"
  | .XOR => "XOR" | .CMP => "CMP" | .DAA => "DAA" | .DAS => "DAS" | .AAA => "AAA" | .AAS => "AAS"
  | .INC => "INC" | .DEC => "DEC" | .PUSH => "PUSH" | .POP => "POP" | .JO => "JO" | .JNO => "JNO"
  | .JB => "JB" | .JAE => "JAE" | .JE => "JE" | .JNE => "JNE" | .JBE => "JBE" | .JA => "JA" | .JS => "JS"
  | .JNS => "JNS" | .JP => "JP" | .JNP => "JNP" | .JL => "JL" | .JGE => "JGE" | .JLE => "JLE" | .JG => "JG"
  | .TEST => "TEST" | .XCHG => "XCHG" | .MOV => "MOV" | .LEA => "LEA" | .NOP => "NOP" | .CBW => "CBW"
  | .CWD => "CWD" | .CALL => "CALL" | .CALLF => "CALLF" | .WAIT => "WAIT" | .PUSHF => "PUSHF"
  | .POPF => "POPF" | .SAHF => "SAHF" | .LAHF => "LAHF" | .MOVSB => "MOVSB" | .MOVSW => "MOVSW"
  | .CMPSB => "CMPSB" | .CMPSW => "CMPSW" | .STOSB => "STOSB" | .STOSW => "STOSW" | .LODSB => "LODSB"
  | .LODSW => "LODSW" | .SCASB => "SCASB" | .SCASW => "SCASW" | .RET => "RET" | .RETF => "RETF"
  | .LES => "LES" | .LDS => "LDS" | .INT3 => "INT3" | .INT => "INT" | .INTO => "INTO" | .IRET => "IRET"
  | .ROL => "ROL" | .ROR => "ROR" | .RCL => "RCL" | .RCR => "RCR" | .SHL => "SHL" | .SHR => "SHR"
  | .SAR => "SAR" | .AAM => "AAM" | .AAD => "AAD" | .XLAT => "XLAT" | .ESC => "ESC" | .LOOPNZ => "LOOPNZ"
  | .LOOPZ => "LOOPZ" | .LOOP => "LOOP" | .JCXZ => "JCXZ" | .IN => "IN" | .OUT => "OUT" | .JMP => "JMP"
  | .JMPF => "JMPF" | .LOCK => "LOCK" | .REPNE => "REPNE" | .REP => "REP" | .HLT => "HLT" | .CMC => "CMC"
  | .NOT => "NOT" | .NEG => "NEG" | .MUL => "MUL" | .IMUL => "IMUL" | .DIV => "DIV" | .IDIV => "IDIV"
  | .CLC => "CLC" | .STC => "STC" | .CLI => "CLI" | .STI => "STI" | .CLD => "CLD" | .STD => "STD"

/-- The register's short name (47_renderer.md R293). -/
def RegisterType.name : RegisterType → String
  | .AL => "AL" | .CL => "CL" | .DL => "DL" | .BL => "BL" | .AH => "AH" | .CH => "CH" | .DH => "DH"
  | .BH => "BH" | .AX => "AX" | .CX => "CX" | .DX => "DX" | .BX => "BX" | .SP => "SP" | .BP => "BP"
  | .SI => "SI" | .DI => "DI" | .ES => "ES" | .CS => "CS" | .SS => "SS" | .DS => "DS"

end Sys2Proof.Machine
end

