-- ==== Sys2Proof/Machine/Render.lean ====
section
/-! DEFINITION. The assembly renderer (47_renderer.md R290 to R304): a pure function of an Instruction and a mode. -/

namespace Sys2Proof.Machine

/-- Joins texts with a separator between them and none after the last. -/
def joinWith (sep : String) : List String → String
  | [] => ""
  | [s] => s
  | s :: t :: rest => s ++ sep ++ joinWith sep (t :: rest)

/-- Base-10 digits with no leading zeros (section 2). -/
def decimal (n : Nat) : String := String.ofList (Nat.toDigits 10 n)

/-- Decimal with `-` before a negative value (section 2). -/
def signedDecimal : Int → String
  | .ofNat n => decimal n
  | .negSucc n => "-" ++ decimal (n + 1)

/-- An upper-case hex digit (R294, R304). -/
def hexDigit (d : BitVec 4) : Char :=
  ['0', '1', '2', '3', '4', '5', '6', '7', '8', '9', 'A', 'B', 'C', 'D', 'E', 'F'].getD d.toNat '0'

/-- `0x` and 2 digits for a byte, 4 for a word (section 2). -/
def hexText : Imm → String
  | .byte b _ => String.ofList ['0', 'x', hexDigit (b.extractLsb' 4 4), hexDigit (b.extractLsb' 0 4)]
  | .word v _ => String.ofList ['0', 'x', hexDigit (v.extractLsb' 12 4), hexDigit (v.extractLsb' 8 4),
      hexDigit (v.extractLsb' 4 4), hexDigit (v.extractLsb' 0 4)]

/-- An immediate that is unsigned in decimal (R296). -/
def unsignedText (mode : OutputValueMode) (i : Imm) : String :=
  match mode with
  | .asInteger => decimal i.uint
  | .asHex => hexText i

/-- An immediate by its role (R294 to R297). -/
def immText (mode : OutputValueMode) (i : Imm) : String :=
  match i.flag with
  | .none =>
    match mode with
    | .asInteger => signedDecimal i.sint
    | .asHex => hexText i
  | .relativeJumpDisplacement => signedDecimal i.sint
  | .portNumber => unsignedText mode i
  | .interruptType => unsignedText mode i
  | .stackAdjust => unsignedText mode i
  | .farSegment => unsignedText mode i
  | .farOffset => unsignedText mode i
  | .escapeCode => decimal i.uint
  | .implicitOne => decimal i.uint

/-- A displacement term on a base or index form (R299, R301): nothing for 0. -/
def dispText (v : Word) : String :=
  if v.toInt = 0 then ""
  else if 0 < v.toInt then " + " ++ signedDecimal v.toInt
  else " - " ++ signedDecimal (-v.toInt)

/-- The base and index terms of a form (R299). -/
def eaText (f : EAForm) : String := joinWith " + " ((f.base.toList ++ f.index.toList).map RegisterType.name)

/-- A memory operand without size keyword (R299 to R302). -/
def memText (m : MemRef) : String :=
  let inner :=
    match m.ea with
    | .DIRECT => decimal m.disp.value.toNat
    | _ => eaText m.ea ++ dispText m.disp.value
  let segText :=
    match m.seg with
    | none => ""
    | some s => (segName s).name ++ ":"
  segText ++ "[" ++ inner ++ "]"

/-- ROL, ROR, RCL, RCR, SHL, SHR, SAR (R303). -/
def isShift (t : InstructionType) : Bool := t ∈ [.ROL, .ROR, .RCL, .RCR, .SHL, .SHR, .SAR]

/-- The types whose memory operand is an address and never takes the keyword (R303). -/
def isAddressOnly (t : InstructionType) : Bool := t ∈ [.LEA, .LDS, .LES, .CALLF, .JMPF, .ESC]

def Operand.isImmediate : Operand → Bool
  | .immediate _ => true
  | .register _ => false
  | .memory _ => false

/-- The size keyword of an instruction's memory operand, with its trailing space, or nothing (R303). -/
def sizeKeyword (x : Instruction) : String :=
  if !isAddressOnly x.type && (x.operands.length == 1 || isShift x.type || x.operands.any Operand.isImmediate) then
    match x.width with
    | .byte => "BYTE "
    | .word => "WORD "
    | .none => ""
  else ""

/-- One operand (R293 to R303). -/
def operandText (mode : OutputValueMode) (x : Instruction) : Operand → String
  | .register r => r.name
  | .immediate i => immText mode i
  | .memory m => sizeKeyword x ++ memText m

/-- The far pair `seg:off` (R298), or the operands joined by `", "` (R292). -/
def operandsText (mode : OutputValueMode) (x : Instruction) : String :=
  match x.operands with
  | [.immediate a, .immediate b] =>
    if a.flag = .farSegment ∧ b.flag = .farOffset then immText mode a ++ ":" ++ immText mode b
    else immText mode a ++ ", " ++ immText mode b
  | l => joinWith ", " (l.map (operandText mode x))

/-- `Render` (R290 to R292). -/
def render (mode : OutputValueMode) (x : Instruction) : String :=
  match x.operands with
  | [] => x.type.name
  | _ :: _ => x.type.name ++ " " ++ operandsText mode x

end Sys2Proof.Machine
end

