-- ==== Sys2Proof/Machine/Ops.lean ====
section
/-! DEFINITION. The shared operations of a decode call: the cursor, the phases of 10_state.md R23 and 30_encoding.md
R87, completing a call, taking a decode error, beginning and returning from a call. Every meaning is a line of these. -/

namespace Sys2Proof.Machine

/-! ### Taking an error, and resuming after it -/

/-- `UnexpectedEndOfStream` at the cursor (60_exceptions.md R322). -/
def endOfStreamError (p0 offset : Nat) : Error := ⟨.unexpectedEndOfStream, p0, offset, none, none⟩

/-- A decoder's error as the block's Error for a call whose cursor is at the decoder's first byte (R321 to R323). -/
def errorOf (p0 pos : Nat) : DecodeError → Error
  | .unknownOpcode op subop => ⟨.unknownOpcode, p0, pos, some op, subop⟩
  | .endOfStream k => endOfStreamError p0 (pos + k)
  | .invalidOperand b => ⟨.invalidOperandEncoding, p0, pos + 1, some b, none⟩

/-- Where the cursor stands when a call fails: at the read that failed, or after the byte that shows the error; for a
group slot that is the ModRM byte after the opcode (20_memory.md R54; 30_encoding.md R87; log 18). -/
def Error.cursor (e : Error) : Nat :=
  match e.kind with
  | .unexpectedEndOfStream => e.offset
  | .invalidOperandEncoding => e.offset + 1
  | .unknownOpcode =>
    match e.subop with
    | none => e.offset + 1
    | some _ => e.offset + 2

/-- The latches of 10_state.md R24 that a call starts without: back to the values that stand for "unwritten"
(70_reset_and_hazards.md R351; log 5). -/
def State.clearLatches (s : State) : State :=
  { s with
    seg := none
    op := 0
    opOffset := 0
    entry := .unknown
    mod := 0
    reg := 0
    rm := 0
    modrmOffset := 0
    disp := .noDisp
    imm1 := .byte 0 .none
    imm2 := .byte 0 .none }

/-- TAKING A DECODE ERROR in the phase it is raised in (60_exceptions.md R324, R326, R327, R332): the call ends in phase
`failed e` with result `Err e`, its latches end with it, and `GetAssembly` drops its text and returns `Err e`. -/
def takeError (e : Error) (s : State) : State :=
  { s.clearLatches with
    pos := e.cursor
    phase := .failed e
    trail := s.trail ++ [.failed e]
    result := some (.err e)
    lines := if s.entryPoint = .getAssembly then [] else s.lines
    text := if s.entryPoint = .getAssembly then some (.err e) else s.text }

/-- The initial state of a decode call at the cursor (70_reset_and_hazards.md R351): the step `GetAssembly` takes before
each instruction, and how a caller resumes after an error once it has set the cursor (60_exceptions.md R326). -/
def State.beginCall (s : State) : State :=
  { s.clearLatches with
    p0 := s.pos
    phase := .start
    trail := [.start]
    result := none }

/-- A call the caller makes on a buffer, at a start offset (70_reset_and_hazards.md R351, R352, R355). R305 and R352 give
`GetAssembly` the start `pos = 0` only; that it may start at another offset is the model's choice (log 29). -/
def State.ofCall (entryPoint : EntryPoint) (buf : Memory) (p0 : Nat) (label : String) (mode : OutputValueMode) : State :=
  { State.reset with buf := buf, pos := p0, p0 := p0, label := label, mode := mode, entryPoint := entryPoint }

/-- The return from an error: the caller makes a new call at a start offset of its own choice (60_exceptions.md R326). For
`GetAssembly` at an offset other than 0 the re-entry, with no lines, is the model's choice (log 29). -/
def State.resumeAt (p0 : Nat) (s : State) : State := State.ofCall s.entryPoint s.buf p0 s.label s.mode

/-! ### The phases -/

/-- The call passes through these phases in turn. -/
def State.through (phases : List Phase) (s : State) : State :=
  { s with phase := phases.getLastD s.phase, trail := s.trail ++ phases }

/-- A part of a decode call: the state after it, or the error that ended it with the state in which it was raised. -/
abbrev Part := State → Except (Error × State) State

/-- Moves the cursor over `n` bytes, as `ReadByte` or `ReadWord` does, to the state `next` gives for the new cursor, or
fails without moving it (20_memory.md R51, R52, R54). -/
def reading (n : Nat) (s : State) (next : Nat → State) : Except (Error × State) State :=
  if s.pos + n ≤ s.buf.size then .ok (next (s.pos + n)) else .error (endOfStreamError s.p0 s.pos, s)

/-- Reads the opcode byte and looks up its entry (30_encoding.md R87). -/
def opcodeRead (op : Byte) : Part := fun s => reading 1 s fun pos =>
  { s with
    pos := pos
    op := op
    opOffset := s.pos
    entry := primary op
    phase := .opcodeRead
    trail := s.trail ++ [.opcodeRead] }

/-- Reads the ModRM byte (R72, R87). -/
def modrmRead (reg : BitVec 3) (e : RM) : Part := fun s => reading 1 s fun pos =>
  { s with
    pos := pos
    mod := e.mod
    reg := reg
    rm := e.rm
    modrmOffset := s.pos
    phase := .modrmRead
    trail := s.trail ++ [.modrmRead] }

/-- Reads a displacement field of `n` bytes (R75, R77); a read that fails reads no byte and leaves the phase (log 30). -/
def displacementField (n : Nat) (d : Disp) : Part := fun s => reading n s fun pos =>
  { s with pos := pos, disp := d, phase := .displacementRead, trail := s.trail ++ [.displacementRead] }

/-- Reads the displacement of a memory operand; the phase is skipped where there is none (10_state.md R23). -/
def memDisplacementRead (m : Mem) : Part :=
  match m with
  | .direct _ => displacementField 2 (memDisp m)
  | .noDisp _ => fun s => .ok { s with disp := .noDisp }
  | .disp8 _ _ => displacementField 1 (memDisp m)
  | .disp16 _ _ => displacementField 2 (memDisp m)

/-- Reads the displacement of an r/m operand. -/
def displacementRead : RM → Part
  | .reg _ => fun s => .ok s
  | .mem m => memDisplacementRead m

/-- The bytes of an immediate field in the stream (R80). -/
def Imm.size : Imm → Nat
  | .byte _ _ => 1
  | .word _ _ => 2

/-- Reads the first immediate field (R80 to R84; log 13). The phase is entered before the read (R87: "while immediates are
read"), so that a read that fails has entered it (log 30). -/
def imm1Read (i : Imm) : Part := fun s => reading i.size (s.through [.immediateRead]) fun pos =>
  { s with pos := pos, imm1 := i, phase := .immediateRead, trail := s.trail ++ [.immediateRead] }

/-- Reads the second immediate field, the segment of a far pointer (R84); the phase is the same. -/
def imm2Read (i : Imm) : Part := fun s => reading i.size s fun pos => { s with pos := pos, imm2 := i }

/-- The parts of a call, one after another (R87). -/
def runParts : List Part → Part
  | [] => fun s => .ok s
  | p :: ps => fun s =>
    match p s with
    | .error e => .error e
    | .ok t => runParts ps t

/-- Ends a call with `Ok` (R87, R104 to R106): the length is every byte consumed, and `GetAssembly` renders the line. -/
def complete (type : InstructionType) (width : DataWidth) (operands : List Operand) (s : State) : State :=
  let x : Instruction := ⟨s.op, s.pos - s.p0, type, width, operands⟩
  { s with
    phase := .complete
    trail := s.trail ++ [.complete]
    result := some (.ok x)
    lines := if s.entryPoint = .getAssembly then s.lines ++ [render s.mode x] else s.lines }

/-- A whole decode from the opcode byte on (R87): its parts, then `Ok`; the first part that fails ends it with its
error (60_exceptions.md R325), in the phase it has reached. -/
def decodeWith (parts : List Part) (type : InstructionType) (width : DataWidth) (operands : List Operand) (s : State) :
    Result :=
  match runParts parts s with
  | .ok t => .next (complete type width operands t)
  | .error (e, t) => .next (takeError e t)

/-- A segment-override prefix byte: it sets `seg` and leaves the phase at Start (R85). -/
def readSegPrefix (seg : SegmentType) (s : State) : Result :=
  match reading 1 s fun pos => { s with pos := pos, seg := some seg, phase := .start } with
  | .ok t => .next t
  | .error (e, t) => .next (takeError e t)

/-! ### The phases of a call that does not decode -/

/-- The bytes of the displacement that follows ModRM byte `m` (R75, R77). -/
def dispBytes (m : Byte) : Nat :=
  if modField m = 3 then 0
  else if modField m = 0 then if rmField m = 6 then 2 else 0
  else if modField m = 1 then 1
  else 2

/-- The phases that a call on these bytes passes before it raises the decoder's error (10_state.md R23; 30_encoding.md
R87; log 30): the phase of each byte read, and ImmediateRead where an immediate is wanting or breaks R112. -/
def phasesBefore (bytes : List Byte) : DecodeError → List Phase
  | .unknownOpcode _ none => [.opcodeRead]
  | .unknownOpcode _ (some _) => [.opcodeRead, .modrmRead]
  | .invalidOperand _ =>
    match bytes with
    | [] => []
    | op :: _ => [.opcodeRead, if (primary op).hasModRM then .modrmRead else .immediateRead]
  | .endOfStream k =>
    match bytes with
    | [] => []
    | [op] => if (primary op).hasModRM then [.opcodeRead] else [.opcodeRead, .immediateRead]
    | op :: m :: _ =>
      if (primary op).hasModRM then
        if dispBytes m = 0 then [.opcodeRead, .modrmRead, .immediateRead]
        else if k = 2 then [.opcodeRead, .modrmRead]
        else [.opcodeRead, .modrmRead, .displacementRead, .immediateRead]
      else [.opcodeRead, .immediateRead]

/-! ### The shapes that instructions share -/

/-- A form with no byte after the opcode: `-` (R103), and the register forms (R93, R94, R102). -/
def decodeShort (op : Byte) (type : InstructionType) (width : DataWidth) (operands : List Operand) (s : State) : Result :=
  decodeWith [opcodeRead op] type width operands s

/-- A form with one immediate field and no ModRM byte; `operands` as the recipe orders them (R91, R93, R95, R101, R102,
R112, R115). -/
def decodeImm (op : Byte) (i : Imm) (type : InstructionType) (width : DataWidth) (operands : List Operand) (s : State) :
    Result :=
  decodeWith [opcodeRead op, imm1Read i] type width operands s

/-- A form with a ModRM byte and no immediate (R90, R97 to R100, R111). -/
def decodeRM (op : Byte) (reg : BitVec 3) (e : RM) (type : InstructionType) (width : DataWidth) (operands : List Operand)
    (s : State) : Result :=
  decodeWith [opcodeRead op, modrmRead reg e, displacementRead e] type width operands s

/-- A form with a ModRM byte and an immediate after the displacement (R92). The stream holds `stored`. -/
def decodeRMImm (op : Byte) (reg : BitVec 3) (e : RM) (stored : Imm) (type : InstructionType) (width : DataWidth)
    (operands : List Operand) (s : State) : Result :=
  decodeWith [opcodeRead op, modrmRead reg e, displacementRead e, imm1Read stored] type width operands s

end Sys2Proof.Machine
end

