-- ==== Sys2Proof/Machine/Call.lean ====
section
/-! DEFINITION. What a step adds around a meaning: fetching from the buffer, where one call ends and the next begins,
the end of the `GetAssembly` loop, and the domain (47_renderer.md R305, R306; 60_exceptions.md R328). -/

namespace Sys2Proof.Machine

/-- The bytes at the cursor, as many as the longest instruction needs (30_encoding.md R70; log 17). -/
def State.fetch (s : State) : List Byte := s.buf.slice s.pos (min maxInstrBytes (s.buf.size - s.pos))

/-- No decode call is in progress at the cursor: none has read a byte yet, or the last one is complete. -/
def State.atBoundary (s : State) : Bool :=
  match s.phase with
  | .complete => true
  | .start => s.pos == s.p0
  | .opcodeRead => false
  | .modrmRead => false
  | .displacementRead => false
  | .immediateRead => false
  | .failed _ => false

/-- The entry point has returned `Ok`: `DecodeNext` after one instruction (R306), `GetAssembly` with its text (R305). -/
def State.returned (s : State) : Bool :=
  match s.entryPoint with
  | .decodeNext => s.phase == .complete
  | .getAssembly => s.text.isSome

/-- The `GetAssembly` loop ends: the stream is exhausted and no call is in progress (R305). -/
def State.exhausted (s : State) : Bool :=
  s.entryPoint == .getAssembly && s.atBoundary && s.pos == s.buf.size

/-- `return Ok(join(lines, "\n"))` (R305). -/
def State.returnText (s : State) : State := { s with text := some (.ok (joinWith "\n" s.lines)) }

/-- The fault that names a failed call's error. -/
def Fault.ofError (e : Error) : Fault :=
  match e.kind with
  | .unknownOpcode => .unknownOpcode e
  | .unexpectedEndOfStream => .unexpectedEndOfStream e
  | .invalidOperandEncoding => .invalidOperandEncoding e

/-- The state a unit of the stream is decoded from: a new call at a boundary, the call in progress after a prefix. -/
def State.ready (s : State) : State := if s.atBoundary then s.beginCall else s

/-- Decodes the unit at the cursor and runs it, or takes the error it gives in the phase it is raised in (30_encoding.md
R87; 10_state.md R23). -/
def decodeUnit (run : Instr → State → Result) (s : State) : Result :=
  match decode s.fetch with
  | .ok (i, _) => run i s
  | .error e => .next (takeError (errorOf s.p0 s.pos e) (s.through (phasesBefore s.fetch e)))

/-- One step: outside the domain a refusal (60_exceptions.md R328); after a failed call its fault; after a return
nothing changes (log 4); at the end of the stream `GetAssembly` returns; otherwise one unit is decoded. -/
def callStep (run : Instr → State → Result) (s : State) : Result :=
  if !s.buf.admitted then .refused .bufferTooLong
  else if s.buf.size < s.pos then .refused .startPastEnd
  else
    match s.phase with
    | .failed e => .fault (Fault.ofError e)
    | .start | .opcodeRead | .modrmRead | .displacementRead | .immediateRead | .complete =>
      if s.returned then .next s
      else if s.exhausted then .next s.returnText
      else decodeUnit run s.ready

/-- The caller supplies a buffer with an instruction at the cursor, and the machine is made to run it next: a call that
has failed or returned is no longer so (log 12). After a returned text this is a new `GetAssembly` call, with no lines
(70_reset_and_hazards.md R352); while `GetAssembly` runs, its lines stay, by the model's choice (log 12). -/
def State.placeInstruction (s : State) (bytes : List Byte) : State :=
  { s with
    buf := s.buf.place s.pos bytes
    phase :=
      match s.phase with
      | .failed _ => .start
      | .complete => .start
      | p => p
    p0 :=
      match s.phase with
      | .failed _ => s.pos
      | .complete => s.pos
      | _ => s.p0
    lines := if s.text.isSome then [] else s.lines
    text := none }

end Sys2Proof.Machine
end

