-- ==== Sys2Proof/Machine/Shapes.lean ====
section
/-! DEFINITION. The forms that several instructions share, each for a given opcode base, group slot and type
(41_arithmetic.md, 42_logic.md, 44_control_transfer.md). -/

namespace Sys2Proof.Machine

/-- ADD, OR, ADC, SBB, AND, SUB, XOR, CMP: `k` is the opcode base, `slot` the group 1 slot (41_arithmetic.md R150). -/
def decodeAlu (k : Byte) (slot : BitVec 3) (type : InstructionType) (f : AluForm) (s : State) : Result :=
  match f with
  | .eg w e g =>
    decodeRM (f.opcode k) g e type (dataWidth w) [rmOperand w s.seg e, regOperand w g] s
  | .ge w g e =>
    decodeRM (f.opcode k) g e type (dataWidth w) [regOperand w g, rmOperand w s.seg e] s
  | .accI d =>
    decodeImm (f.opcode k) (dataImm d) type (dataWidth d.width) [regOperand d.width 0, .immediate (dataImm d)] s
  | .eI e d =>
    decodeRMImm (f.opcode k) slot e (dataImm d) type (dataWidth d.width)
      [rmOperand d.width s.seg e, .immediate (dataImm d)] s
  | .eI82 e b =>
    decodeRMImm (f.opcode k) slot e (.byte b .none) type .byte
      [rmOperand .byte s.seg e, .immediate (.byte b .none)] s
  | .eIs e b =>
    decodeRMImm (f.opcode k) slot e (.byte b .none) type .word
      [rmOperand .word s.seg e, .immediate (sextImm b)] s

/-- INC and DEC: `k` is the first register opcode, `slot` the slot of groups 4 and 5 (41_arithmetic.md R152, R157). -/
def decodeIncDec (k : Byte) (slot : BitVec 3) (type : InstructionType) (f : IncDecForm) (s : State) : Result :=
  match f with
  | .reg16 r => decodeShort (f.opcode k) type .word [regOperand .word r] s
  | .rm w e => decodeRM (f.opcode k) slot e type (dataWidth w) [rmOperand w s.seg e] s

/-- Group 3 with recipe `E`: `slot` is the group slot (30_encoding.md R114). -/
def decodeUnary (slot : BitVec 3) (type : InstructionType) (w : OpWidth) (e : RM) (s : State) : Result :=
  decodeRM (0xF6 + w.bit) slot e type (dataWidth w) [rmOperand w s.seg e] s

/-- Group 2: `slot` is the group slot (42_logic.md R181; 30_encoding.md R98). -/
def decodeShift (slot : BitVec 3) (type : InstructionType) (n : ShiftCount) (w : OpWidth) (e : RM) (s : State) : Result :=
  decodeRM (n.opcode w) slot e type (dataWidth w) [rmOperand w s.seg e, countOperand n] s

/-- Recipe `G,M` (30_encoding.md R100). -/
def decodeGM (op : Byte) (type : InstructionType) (g : BitVec 3) (m : Mem) (s : State) : Result :=
  decodeRM op g (.mem m) type .word [regOperand .word g, memOperand s.seg m] s

/-- Recipe `REL8` (R95). -/
def decodeRel8 (op : Byte) (type : InstructionType) (d : Byte) (s : State) : Result :=
  decodeImm op (.byte d .relativeJumpDisplacement) type .none [.immediate (.byte d .relativeJumpDisplacement)] s

/-- Recipe `REL16` (R95). -/
def decodeRel16 (op : Byte) (type : InstructionType) (d : Word) (s : State) : Result :=
  decodeImm op (.word d .relativeJumpDisplacement) type .none [.immediate (.word d .relativeJumpDisplacement)] s

/-- CALLF and JMPF: recipe `FAR`, the offset word then the segment word in the stream and the segment first among the
operands (R84, R96), or recipe `M` in group 5 (44_control_transfer.md R216). -/
def decodeFar (k : Byte) (slot : BitVec 3) (type : InstructionType) (f : FarForm) (s : State) : Result :=
  match f with
  | .far off seg =>
    decodeWith [opcodeRead (f.opcode k), imm1Read (.word off .farOffset), imm2Read (.word seg .farSegment)] type .none
      [.immediate (.word seg .farSegment), .immediate (.word off .farOffset)] s
  | .mem m => decodeRM (f.opcode k) slot (.mem m) type .word [memOperand s.seg m] s

/-- RET and RETF (44_control_transfer.md R219, R220). -/
def decodeRet (k : Byte) (type : InstructionType) (f : RetForm) (s : State) : Result :=
  match f with
  | .plain => decodeShort (f.opcode k) type .none [] s
  | .adjust n => decodeImm (f.opcode k) (.word n .stackAdjust) type .none [.immediate (.word n .stackAdjust)] s

/-- Recipe `BASE10` (30_encoding.md R112): one byte, 0x0A, and no operand. -/
def decodeBase10 (op : Byte) (type : InstructionType) (s : State) : Result :=
  decodeImm op (.byte 0x0A .none) type .none [] s

end Sys2Proof.Machine
end

