-- ==== Sys2Proof/Machine/Arithmetic.lean ====
section
/-! DEFINITION. Arithmetic instructions (41_arithmetic.md). -/

namespace Sys2Proof.Machine

/-- ADD (R150). -/
def execAdd (f : AluForm) (s : State) : Result := decodeAlu 0x00 0 .ADD f s

/-- ADC (R151). -/
def execAdc (f : AluForm) (s : State) : Result := decodeAlu 0x10 2 .ADC f s

/-- INC (R152). -/
def execInc (f : IncDecForm) (s : State) : Result := decodeIncDec 0x40 0 .INC f s

/-- AAA (R153): 37, recipe `-`. -/
def execAaa (s : State) : Result := decodeShort 0x37 .AAA .none [] s

/-- DAA (R154): 27, recipe `-`. -/
def execDaa (s : State) : Result := decodeShort 0x27 .DAA .none [] s

/-- SUB (R155). -/
def execSub (f : AluForm) (s : State) : Result := decodeAlu 0x28 5 .SUB f s

/-- SBB (R156). -/
def execSbb (f : AluForm) (s : State) : Result := decodeAlu 0x18 3 .SBB f s

/-- DEC (R157). -/
def execDec (f : IncDecForm) (s : State) : Result := decodeIncDec 0x48 1 .DEC f s

/-- NEG (R158): group 3 slot 3. -/
def execNeg (w : OpWidth) (e : RM) (s : State) : Result := decodeUnary 3 .NEG w e s

/-- CMP (R159). -/
def execCmp (f : AluForm) (s : State) : Result := decodeAlu 0x38 7 .CMP f s

/-- AAS (R160): 3F, recipe `-`. -/
def execAas (s : State) : Result := decodeShort 0x3F .AAS .none [] s

/-- DAS (R161): 2F, recipe `-`. -/
def execDas (s : State) : Result := decodeShort 0x2F .DAS .none [] s

/-- MUL (R162): group 3 slot 4. -/
def execMul (w : OpWidth) (e : RM) (s : State) : Result := decodeUnary 4 .MUL w e s

/-- IMUL (R163): group 3 slot 5. -/
def execImul (w : OpWidth) (e : RM) (s : State) : Result := decodeUnary 5 .IMUL w e s

/-- AAM (R164). -/
def execAam (s : State) : Result := decodeBase10 0xD4 .AAM s

/-- DIV (R165): group 3 slot 6. -/
def execDiv (w : OpWidth) (e : RM) (s : State) : Result := decodeUnary 6 .DIV w e s

/-- IDIV (R166): group 3 slot 7. -/
def execIdiv (w : OpWidth) (e : RM) (s : State) : Result := decodeUnary 7 .IDIV w e s

/-- AAD (R167). -/
def execAad (s : State) : Result := decodeBase10 0xD5 .AAD s

/-- CBW (R168): 98, recipe `-`. -/
def execCbw (s : State) : Result := decodeShort 0x98 .CBW .none [] s

/-- CWD (R169): 99, recipe `-`. -/
def execCwd (s : State) : Result := decodeShort 0x99 .CWD .none [] s

end Sys2Proof.Machine
end

