-- ==== Sys2Proof/Machine/ControlTransfer.lean ====
section
/-! DEFINITION. Control-transfer instructions (44_control_transfer.md): the displacement is kept raw, and no control is
transferred (R245, R246). -/

namespace Sys2Proof.Machine

/-- CALL (R215). -/
def execCall (f : CallForm) (s : State) : Result :=
  match f with
  | .rel16 d => decodeRel16 f.opcode .CALL d s
  | .rm e => decodeRM f.opcode 2 e .CALL .word [rmOperand .word s.seg e] s

/-- CALLF (R216). -/
def execCallf (f : FarForm) (s : State) : Result := decodeFar 0x9A 3 .CALLF f s

/-- JMP (R217). -/
def execJmp (f : JmpForm) (s : State) : Result :=
  match f with
  | .rel8 d => decodeRel8 f.opcode .JMP d s
  | .rel16 d => decodeRel16 f.opcode .JMP d s
  | .rm e => decodeRM f.opcode 4 e .JMP .word [rmOperand .word s.seg e] s

/-- JMPF (R218). -/
def execJmpf (f : FarForm) (s : State) : Result := decodeFar 0xEA 5 .JMPF f s

/-- RET (R219). -/
def execRet (f : RetForm) (s : State) : Result := decodeRet 0xC2 .RET f s

/-- RETF (R220). -/
def execRetf (f : RetForm) (s : State) : Result := decodeRet 0xCA .RETF f s

/-- JO (R221). -/
def execJo (d : Byte) (s : State) : Result := decodeRel8 0x70 .JO d s

/-- JNO (R222). -/
def execJno (d : Byte) (s : State) : Result := decodeRel8 0x71 .JNO d s

/-- JB (R223). -/
def execJb (d : Byte) (s : State) : Result := decodeRel8 0x72 .JB d s

/-- JAE (R224). -/
def execJae (d : Byte) (s : State) : Result := decodeRel8 0x73 .JAE d s

/-- JE (R225). -/
def execJe (d : Byte) (s : State) : Result := decodeRel8 0x74 .JE d s

/-- JNE (R226). -/
def execJne (d : Byte) (s : State) : Result := decodeRel8 0x75 .JNE d s

/-- JBE (R227). -/
def execJbe (d : Byte) (s : State) : Result := decodeRel8 0x76 .JBE d s

/-- JA (R228). -/
def execJa (d : Byte) (s : State) : Result := decodeRel8 0x77 .JA d s

/-- JS (R229). -/
def execJs (d : Byte) (s : State) : Result := decodeRel8 0x78 .JS d s

/-- JNS (R230). -/
def execJns (d : Byte) (s : State) : Result := decodeRel8 0x79 .JNS d s

/-- JP (R231). -/
def execJp (d : Byte) (s : State) : Result := decodeRel8 0x7A .JP d s

/-- JNP (R232). -/
def execJnp (d : Byte) (s : State) : Result := decodeRel8 0x7B .JNP d s

/-- JL (R233). -/
def execJl (d : Byte) (s : State) : Result := decodeRel8 0x7C .JL d s

/-- JGE (R234). -/
def execJge (d : Byte) (s : State) : Result := decodeRel8 0x7D .JGE d s

/-- JLE (R235). -/
def execJle (d : Byte) (s : State) : Result := decodeRel8 0x7E .JLE d s

/-- JG (R236). -/
def execJg (d : Byte) (s : State) : Result := decodeRel8 0x7F .JG d s

/-- LOOP (R237). -/
def execLoop (d : Byte) (s : State) : Result := decodeRel8 0xE2 .LOOP d s

/-- LOOPZ (R238). -/
def execLoopz (d : Byte) (s : State) : Result := decodeRel8 0xE1 .LOOPZ d s

/-- LOOPNZ (R239). -/
def execLoopnz (d : Byte) (s : State) : Result := decodeRel8 0xE0 .LOOPNZ d s

/-- JCXZ (R240). -/
def execJcxz (d : Byte) (s : State) : Result := decodeRel8 0xE3 .JCXZ d s

/-- INT (R241). -/
def execInt (n : Byte) (s : State) : Result :=
  decodeImm 0xCD (.byte n .interruptType) .INT .none [.immediate (.byte n .interruptType)] s

/-- INT3 (R242): CC, recipe `-`. -/
def execInt3 (s : State) : Result := decodeShort 0xCC .INT3 .none [] s

/-- INTO (R243): CE, recipe `-`. -/
def execInto (s : State) : Result := decodeShort 0xCE .INTO .none [] s

/-- IRET (R244): CF, recipe `-`. -/
def execIret (s : State) : Result := decodeShort 0xCF .IRET .none [] s

end Sys2Proof.Machine
end

