-- ==== Sys2Proof/Machine/DataTransfer.lean ====
section
/-! DEFINITION. Data-transfer instructions (40_data_transfer.md). -/

namespace Sys2Proof.Machine

/-- MOV (R120 to R124). -/
def execMov (f : MovForm) (s : State) : Result :=
  match f with
  | .eg w e g => decodeRM f.opcode g e .MOV (dataWidth w) [rmOperand w s.seg e, regOperand w g] s
  | .ge w g e => decodeRM f.opcode g e .MOV (dataWidth w) [regOperand w g, rmOperand w s.seg e] s
  | .eI e d =>
    decodeRMImm f.opcode 0 e (dataImm d) .MOV (dataWidth d.width) [rmOperand d.width s.seg e, .immediate (dataImm d)] s
  | .regI r d =>
    decodeImm f.opcode (dataImm d) .MOV (dataWidth d.width) [regOperand d.width r, .immediate (dataImm d)] s
  | .accMoffs w a =>
    decodeImm f.opcode (.word a .none) .MOV (dataWidth w) [regOperand w 0, moffsOperand s.seg a] s
  | .moffsAcc w a =>
    decodeImm f.opcode (.word a .none) .MOV (dataWidth w) [moffsOperand s.seg a, regOperand w 0] s
  | .ewS e r => decodeRM f.opcode r.reg e .MOV .word [rmOperand .word s.seg e, segOperand r] s
  | .sEw r e => decodeRM f.opcode r.reg e .MOV .word [segOperand r, rmOperand .word s.seg e] s

/-- PUSH (R125). -/
def execPush (f : StackForm) (s : State) : Result :=
  match f with
  | .reg16 r => decodeShort f.opcodePush .PUSH .word [regOperand .word r] s
  | .sreg r => decodeShort f.opcodePush .PUSH .word [segOperand r] s
  | .rm e => decodeRM f.opcodePush 6 e .PUSH .word [rmOperand .word s.seg e] s

/-- POP (R126). -/
def execPop (f : StackForm) (s : State) : Result :=
  match f with
  | .reg16 r => decodeShort f.opcodePop .POP .word [regOperand .word r] s
  | .sreg r => decodeShort f.opcodePop .POP .word [segOperand r] s
  | .rm e => decodeRM f.opcodePop 0 e .POP .word [rmOperand .word s.seg e] s

/-- XCHG (R127). -/
def execXchg (f : XchgForm) (s : State) : Result :=
  match f with
  | .eg w e g => decodeRM f.opcode g e .XCHG (dataWidth w) [rmOperand w s.seg e, regOperand w g] s
  | .ax r => decodeShort f.opcode .XCHG .word [.register .AX, regOperand .word r] s

/-- IN (R128). -/
def execInPort (f : PortForm) (s : State) : Result :=
  match f with
  | .imm w b =>
    decodeImm (f.opcode 0xE4 0xEC) (.byte b .portNumber) .IN (dataWidth w)
      [regOperand w 0, .immediate (.byte b .portNumber)] s
  | .dx w => decodeShort (f.opcode 0xE4 0xEC) .IN (dataWidth w) [regOperand w 0, .register .DX] s

/-- OUT (R129). -/
def execOutPort (f : PortForm) (s : State) : Result :=
  match f with
  | .imm w b =>
    decodeImm (f.opcode 0xE6 0xEE) (.byte b .portNumber) .OUT (dataWidth w)
      [.immediate (.byte b .portNumber), regOperand w 0] s
  | .dx w => decodeShort (f.opcode 0xE6 0xEE) .OUT (dataWidth w) [.register .DX, regOperand w 0] s

/-- XLAT (R130): D7, recipe `-`. -/
def execXlat (s : State) : Result := decodeShort 0xD7 .XLAT .none [] s

/-- LEA (R131). -/
def execLea (g : BitVec 3) (m : Mem) (s : State) : Result := decodeGM 0x8D .LEA g m s

/-- LDS (R132). -/
def execLds (g : BitVec 3) (m : Mem) (s : State) : Result := decodeGM 0xC5 .LDS g m s

/-- LES (R133). -/
def execLes (g : BitVec 3) (m : Mem) (s : State) : Result := decodeGM 0xC4 .LES g m s

/-- LAHF (R134): 9F, recipe `-`. -/
def execLahf (s : State) : Result := decodeShort 0x9F .LAHF .none [] s

/-- SAHF (R135): 9E, recipe `-`. -/
def execSahf (s : State) : Result := decodeShort 0x9E .SAHF .none [] s

/-- PUSHF (R136): 9C, recipe `-`. -/
def execPushf (s : State) : Result := decodeShort 0x9C .PUSHF .none [] s

/-- POPF (R137): 9D, recipe `-`. -/
def execPopf (s : State) : Result := decodeShort 0x9D .POPF .none [] s

end Sys2Proof.Machine
end

