-- ==== Sys2Proof/Machine/Logic.lean ====
section
/-! DEFINITION. Logic, shift and rotate instructions (42_logic.md). -/

namespace Sys2Proof.Machine

/-- NOT (R180): group 3 slot 2. -/
def execNot (w : OpWidth) (e : RM) (s : State) : Result := decodeUnary 2 .NOT w e s

/-- SHL (R181): group 2 slot 4. -/
def execShl (n : ShiftCount) (w : OpWidth) (e : RM) (s : State) : Result :=
  decodeShift 4 .SHL n w e s

/-- SHR (R182): group 2 slot 5. -/
def execShr (n : ShiftCount) (w : OpWidth) (e : RM) (s : State) : Result :=
  decodeShift 5 .SHR n w e s

/-- SAR (R183): group 2 slot 7. -/
def execSar (n : ShiftCount) (w : OpWidth) (e : RM) (s : State) : Result :=
  decodeShift 7 .SAR n w e s

/-- ROL (R184): group 2 slot 0. -/
def execRol (n : ShiftCount) (w : OpWidth) (e : RM) (s : State) : Result :=
  decodeShift 0 .ROL n w e s

/-- ROR (R185): group 2 slot 1. -/
def execRor (n : ShiftCount) (w : OpWidth) (e : RM) (s : State) : Result :=
  decodeShift 1 .ROR n w e s

/-- RCL (R186): group 2 slot 2. -/
def execRcl (n : ShiftCount) (w : OpWidth) (e : RM) (s : State) : Result :=
  decodeShift 2 .RCL n w e s

/-- RCR (R187): group 2 slot 3. -/
def execRcr (n : ShiftCount) (w : OpWidth) (e : RM) (s : State) : Result :=
  decodeShift 3 .RCR n w e s

/-- AND (R188). -/
def execAnd (f : AluForm) (s : State) : Result := decodeAlu 0x20 4 .AND f s

/-- TEST (R189). -/
def execTest (f : TestForm) (s : State) : Result :=
  match f with
  | .eg w e g => decodeRM f.opcode g e .TEST (dataWidth w) [rmOperand w s.seg e, regOperand w g] s
  | .accI d =>
    decodeImm f.opcode (dataImm d) .TEST (dataWidth d.width) [regOperand d.width 0, .immediate (dataImm d)] s
  | .eI e d =>
    decodeRMImm f.opcode 0 e (dataImm d) .TEST (dataWidth d.width) [rmOperand d.width s.seg e, .immediate (dataImm d)] s

/-- OR (R190). -/
def execOr (f : AluForm) (s : State) : Result := decodeAlu 0x08 1 .OR f s

/-- XOR (R191). -/
def execXor (f : AluForm) (s : State) : Result := decodeAlu 0x30 6 .XOR f s

end Sys2Proof.Machine
end

