-- ==== Sys2Proof/Machine/Prefixes.lean ====
section
/-! DEFINITION. The segment-override prefix bytes (30_encoding.md R85, R86): each sets `seg`, is counted in the length of
the instruction it precedes, and leaves the phase at Start. -/

namespace Sys2Proof.Machine

/-- Prefix byte 26 (R85). -/
def execPrefixES (s : State) : Result := readSegPrefix .ES s

/-- Prefix byte 2E (R85). -/
def execPrefixCS (s : State) : Result := readSegPrefix .CS s

/-- Prefix byte 36 (R85). -/
def execPrefixSS (s : State) : Result := readSegPrefix .SS s

/-- Prefix byte 3E (R85). -/
def execPrefixDS (s : State) : Result := readSegPrefix .DS s

end Sys2Proof.Machine
end

