-- ==== Sys2Proof/Machine/ProcessorControl.lean ====
section
/-! DEFINITION. Flag-control and processor-control instructions (45_processor_control.md). -/

namespace Sys2Proof.Machine

/-- CLC (R250): F8, recipe `-`. -/
def execClc (s : State) : Result := decodeShort 0xF8 .CLC .none [] s

/-- CMC (R251): F5, recipe `-`. -/
def execCmc (s : State) : Result := decodeShort 0xF5 .CMC .none [] s

/-- STC (R252): F9, recipe `-`. -/
def execStc (s : State) : Result := decodeShort 0xF9 .STC .none [] s

/-- CLD (R253): FC, recipe `-`. -/
def execCld (s : State) : Result := decodeShort 0xFC .CLD .none [] s

/-- STD (R254): FD, recipe `-`. -/
def execStd (s : State) : Result := decodeShort 0xFD .STD .none [] s

/-- CLI (R255): FA, recipe `-`. -/
def execCli (s : State) : Result := decodeShort 0xFA .CLI .none [] s

/-- STI (R256): FB, recipe `-`. -/
def execSti (s : State) : Result := decodeShort 0xFB .STI .none [] s

/-- HLT (R257): F4, recipe `-`. -/
def execHlt (s : State) : Result := decodeShort 0xF4 .HLT .none [] s

/-- WAIT (R258): 9B, recipe `-`. -/
def execWait (s : State) : Result := decodeShort 0x9B .WAIT .none [] s

/-- ESC (R259): the code's high three bits are in the opcode, its low three in `reg`. -/
def execEsc (code : BitVec 6) (e : RM) (s : State) : Result :=
  decodeRM (escOpcode code) (code.extractLsb' 0 3) e .ESC .word [.immediate (escImm code), rmOperand .word s.seg e] s

/-- LOCK (R260): F0, recipe `-`. -/
def execLock (s : State) : Result := decodeShort 0xF0 .LOCK .none [] s

/-- NOP (R261): 90, recipe `-`. -/
def execNop (s : State) : Result := decodeShort 0x90 .NOP .none [] s

end Sys2Proof.Machine
end

