-- ==== Sys2Proof/Machine/Strings.lean ====
section
/-! DEFINITION. String instructions and repeat bytes (43_string.md): none has an operand, and the name carries the size. -/

namespace Sys2Proof.Machine

/-- REP (R200): F3, recipe `-`. -/
def execRep (s : State) : Result := decodeShort 0xF3 .REP .none [] s

/-- REPNE (R201): F2, recipe `-`. -/
def execRepne (s : State) : Result := decodeShort 0xF2 .REPNE .none [] s

/-- MOVSB (R202): A4, recipe `-`. -/
def execMovsb (s : State) : Result := decodeShort 0xA4 .MOVSB .byte [] s

/-- MOVSW (R203): A5, recipe `-`. -/
def execMovsw (s : State) : Result := decodeShort 0xA5 .MOVSW .word [] s

/-- CMPSB (R204): A6, recipe `-`. -/
def execCmpsb (s : State) : Result := decodeShort 0xA6 .CMPSB .byte [] s

/-- CMPSW (R205): A7, recipe `-`. -/
def execCmpsw (s : State) : Result := decodeShort 0xA7 .CMPSW .word [] s

/-- SCASB (R206): AE, recipe `-`. -/
def execScasb (s : State) : Result := decodeShort 0xAE .SCASB .byte [] s

/-- SCASW (R207): AF, recipe `-`. -/
def execScasw (s : State) : Result := decodeShort 0xAF .SCASW .word [] s

/-- LODSB (R208): AC, recipe `-`. -/
def execLodsb (s : State) : Result := decodeShort 0xAC .LODSB .byte [] s

/-- LODSW (R209): AD, recipe `-`. -/
def execLodsw (s : State) : Result := decodeShort 0xAD .LODSW .word [] s

/-- STOSB (R210): AA, recipe `-`. -/
def execStosb (s : State) : Result := decodeShort 0xAA .STOSB .byte [] s

/-- STOSW (R211): AB, recipe `-`. -/
def execStosw (s : State) : Result := decodeShort 0xAB .STOSW .word [] s

end Sys2Proof.Machine
end

