-- ==== Sys2Proof/Machine/Dispatch.lean ====
section
/-! DEFINITION. The meaning of every instruction: what its decode does to the state. -/

namespace Sys2Proof.Machine

def exec (i : Instr) (s : State) : Host.Outcome State Fault Refusal :=
  match i with
  -- Prefixes
  | .prefixES => Sys2Proof.Machine.execPrefixES s
  | .prefixCS => Sys2Proof.Machine.execPrefixCS s
  | .prefixSS => Sys2Proof.Machine.execPrefixSS s
  | .prefixDS => Sys2Proof.Machine.execPrefixDS s
  -- DataTransfer
  | .mov f => Sys2Proof.Machine.execMov f s
  | .push f => Sys2Proof.Machine.execPush f s
  | .pop f => Sys2Proof.Machine.execPop f s
  | .xchg f => Sys2Proof.Machine.execXchg f s
  | .inPort f => Sys2Proof.Machine.execInPort f s
  | .outPort f => Sys2Proof.Machine.execOutPort f s
  | .xlat => Sys2Proof.Machine.execXlat s
  | .lea g m => Sys2Proof.Machine.execLea g m s
  | .lds g m => Sys2Proof.Machine.execLds g m s
  | .les g m => Sys2Proof.Machine.execLes g m s
  | .lahf => Sys2Proof.Machine.execLahf s
  | .sahf => Sys2Proof.Machine.execSahf s
  | .pushf => Sys2Proof.Machine.execPushf s
  | .popf => Sys2Proof.Machine.execPopf s
  -- Arithmetic
  | .add f => Sys2Proof.Machine.execAdd f s
  | .adc f => Sys2Proof.Machine.execAdc f s
  | .inc f => Sys2Proof.Machine.execInc f s
  | .aaa => Sys2Proof.Machine.execAaa s
  | .daa => Sys2Proof.Machine.execDaa s
  | .sub f => Sys2Proof.Machine.execSub f s
  | .sbb f => Sys2Proof.Machine.execSbb f s
  | .dec f => Sys2Proof.Machine.execDec f s
  | .neg w e => Sys2Proof.Machine.execNeg w e s
  | .cmp f => Sys2Proof.Machine.execCmp f s
  | .aas => Sys2Proof.Machine.execAas s
  | .das => Sys2Proof.Machine.execDas s
  | .mul w e => Sys2Proof.Machine.execMul w e s
  | .imul w e => Sys2Proof.Machine.execImul w e s
  | .aam => Sys2Proof.Machine.execAam s
  | .div w e => Sys2Proof.Machine.execDiv w e s
  | .idiv w e => Sys2Proof.Machine.execIdiv w e s
  | .aad => Sys2Proof.Machine.execAad s
  | .cbw => Sys2Proof.Machine.execCbw s
  | .cwd => Sys2Proof.Machine.execCwd s
  -- Logic
  | .not w e => Sys2Proof.Machine.execNot w e s
  | .shl n w e => Sys2Proof.Machine.execShl n w e s
  | .shr n w e => Sys2Proof.Machine.execShr n w e s
  | .sar n w e => Sys2Proof.Machine.execSar n w e s
  | .rol n w e => Sys2Proof.Machine.execRol n w e s
  | .ror n w e => Sys2Proof.Machine.execRor n w e s
  | .rcl n w e => Sys2Proof.Machine.execRcl n w e s
  | .rcr n w e => Sys2Proof.Machine.execRcr n w e s
  | .and f => Sys2Proof.Machine.execAnd f s
  | .test f => Sys2Proof.Machine.execTest f s
  | .or f => Sys2Proof.Machine.execOr f s
  | .xor f => Sys2Proof.Machine.execXor f s
  -- Strings
  | .rep => Sys2Proof.Machine.execRep s
  | .repne => Sys2Proof.Machine.execRepne s
  | .movsb => Sys2Proof.Machine.execMovsb s
  | .movsw => Sys2Proof.Machine.execMovsw s
  | .cmpsb => Sys2Proof.Machine.execCmpsb s
  | .cmpsw => Sys2Proof.Machine.execCmpsw s
  | .scasb => Sys2Proof.Machine.execScasb s
  | .scasw => Sys2Proof.Machine.execScasw s
  | .lodsb => Sys2Proof.Machine.execLodsb s
  | .lodsw => Sys2Proof.Machine.execLodsw s
  | .stosb => Sys2Proof.Machine.execStosb s
  | .stosw => Sys2Proof.Machine.execStosw s
  -- ControlTransfer
  | .call f => Sys2Proof.Machine.execCall f s
  | .callf f => Sys2Proof.Machine.execCallf f s
  | .jmp f => Sys2Proof.Machine.execJmp f s
  | .jmpf f => Sys2Proof.Machine.execJmpf f s
  | .ret f => Sys2Proof.Machine.execRet f s
  | .retf f => Sys2Proof.Machine.execRetf f s
  | .jo d => Sys2Proof.Machine.execJo d s
  | .jno d => Sys2Proof.Machine.execJno d s
  | .jb d => Sys2Proof.Machine.execJb d s
  | .jae d => Sys2Proof.Machine.execJae d s
  | .je d => Sys2Proof.Machine.execJe d s
  | .jne d => Sys2Proof.Machine.execJne d s
  | .jbe d => Sys2Proof.Machine.execJbe d s
  | .ja d => Sys2Proof.Machine.execJa d s
  | .js d => Sys2Proof.Machine.execJs d s
  | .jns d => Sys2Proof.Machine.execJns d s
  | .jp d => Sys2Proof.Machine.execJp d s
  | .jnp d => Sys2Proof.Machine.execJnp d s
  | .jl d => Sys2Proof.Machine.execJl d s
  | .jge d => Sys2Proof.Machine.execJge d s
  | .jle d => Sys2Proof.Machine.execJle d s
  | .jg d => Sys2Proof.Machine.execJg d s
  | .loop d => Sys2Proof.Machine.execLoop d s
  | .loopz d => Sys2Proof.Machine.execLoopz d s
  | .loopnz d => Sys2Proof.Machine.execLoopnz d s
  | .jcxz d => Sys2Proof.Machine.execJcxz d s
  | .int n => Sys2Proof.Machine.execInt n s
  | .int3 => Sys2Proof.Machine.execInt3 s
  | .into => Sys2Proof.Machine.execInto s
  | .iret => Sys2Proof.Machine.execIret s
  -- ProcessorControl
  | .clc => Sys2Proof.Machine.execClc s
  | .cmc => Sys2Proof.Machine.execCmc s
  | .stc => Sys2Proof.Machine.execStc s
  | .cld => Sys2Proof.Machine.execCld s
  | .std => Sys2Proof.Machine.execStd s
  | .cli => Sys2Proof.Machine.execCli s
  | .sti => Sys2Proof.Machine.execSti s
  | .hlt => Sys2Proof.Machine.execHlt s
  | .wait => Sys2Proof.Machine.execWait s
  | .esc code e => Sys2Proof.Machine.execEsc code e s
  | .lock => Sys2Proof.Machine.execLock s
  | .nop => Sys2Proof.Machine.execNop s

end Sys2Proof.Machine
end

