-- ==== Sys2Proof/Machine/Step.lean ====
section
/-! DEFINITION. One step of the machine, and the caller's placing of an instruction where the next step fetches. -/

namespace Sys2Proof.Machine

/-- One step: `callStep` over the meanings. -/
def step (s : State) : Host.Outcome State Fault Refusal := callStep exec s

/-- `s` with the instruction whose opcode-table word is `w` stored at the cursor, so that the next step runs it. -/
def State.withFetchWord (s : State) (nbits w : Nat) : State := s.placeInstruction (tableBytes nbits w)

end Sys2Proof.Machine
end

