-- ==== Sys2Proof/Machine/Algorithm.lean ====
section
/-! DEFINITION. The decode algorithm of 30_encoding.md R87 as the spec writes it, over `PRIMARY` and `GROUP`, and the two
entry points over it (47_renderer.md R305, R306). It is a second account of what the machine's steps compute: it shares
with them the data model, the field extraction and the renderer, not the opcode map, the meanings or the call's state.
`Except` is its `raise` and `return` (00_scope.md R16). -/

namespace Sys2Proof.Machine

/-- `ReadByte` at `pos` (20_memory.md R51): the byte and the new cursor. -/
def readByteAt (B : Memory) (p0 pos : Nat) : Except Error (Byte × Nat) :=
  match B.read pos with
  | some b => .ok (b, pos + 1)
  | none => .error (endOfStreamError p0 pos)

/-- `ReadWord` at `pos` (R52). -/
def readWordAt (B : Memory) (p0 pos : Nat) : Except Error (Word × Nat) :=
  match B.read pos, B.read (pos + 1) with
  | some lo, some hi => .ok (wordOfBytes lo hi, pos + 2)
  | _, _ => .error (endOfStreamError p0 pos)

/-- `Peek` (R53). -/
def peekAt (B : Memory) (pos : Nat) : Option Byte := B.read pos

/-- The segment-override prefix bytes (30_encoding.md R85). -/
def segPrefixBytes : List Byte := [0x26, 0x2E, 0x36, 0x3E]

/-- The loop of phase Start: the opcode byte, the cursor after it, and `seg` (R85, R87). Each round reads a byte, so
`fuel` greater than the number of bytes left is enough. -/
def readOpcode (B : Memory) (p0 : Nat) : Nat → Nat → Option SegmentType → Except Error (Byte × Nat × Option SegmentType)
  | 0, pos, _ => .error (endOfStreamError p0 pos)
  | fuel + 1, pos, seg => do
    let (b, pos) ← readByteAt B p0 pos
    if b ∈ segPrefixBytes then readOpcode B p0 fuel pos (some (segOfCode (b.extractLsb' 3 2)))
    else .ok (b, pos, seg)

/-- The w of an instruction width; recipes that use it have Byte or Word (R104). -/
def DataWidth.opWidth : DataWidth → OpWidth
  | .byte => .byte
  | .word => .word
  | .none => .byte

/-- `RmWidth(recipe, width)` (R74). -/
def rmWidth (recipe : Recipe) (width : DataWidth) : OpWidth :=
  if recipe ∈ [.ewS, .sEw, .gM, .esc] then .word else width.opWidth

/-- `ResolveRM` (R87). -/
def resolveRM (B : Memory) (p0 : Nat) (seg : Option SegmentType) (mod : BitVec 2) (rm : BitVec 3) (w : OpWidth)
    (pos : Nat) : Except Error (Operand × Nat) := do
  if mod = 3 then .ok (.register (regName w rm), pos)
  else if mod = 0 ∧ rm = 6 then
    let (a, pos) ← readWordAt B p0 pos
    .ok (.memory ⟨.DIRECT, .disp16 a, seg⟩, pos)
  else if mod = 0 then .ok (.memory ⟨eaForm rm, .noDisp, seg⟩, pos)
  else if mod = 1 then
    let (b, pos) ← readByteAt B p0 pos
    .ok (.memory ⟨eaForm rm, .disp8 (sext16 b), seg⟩, pos)
  else
    let (v, pos) ← readWordAt B p0 pos
    .ok (.memory ⟨eaForm rm, .disp16 v, seg⟩, pos)

/-- `CheckFields` fails (R109). -/
def badFields (recipe : Recipe) (mod : BitVec 2) (reg : BitVec 3) : Bool :=
  match recipe with
  | .gM => mod == 3
  | .m => mod == 3
  | .ewS => decide (4 ≤ reg.toNat)
  | .sEw => decide (4 ≤ reg.toNat) || reg == 1
  | _ => false

/-- An immediate of the instruction width (R80). -/
def readImm (B : Memory) (p0 : Nat) (w : OpWidth) (pos : Nat) : Except Error (Operand × Nat) :=
  match w with
  | .byte => do
    let (b, pos) ← readByteAt B p0 pos
    .ok (.immediate (.byte b .none), pos)
  | .word => do
    let (v, pos) ← readWordAt B p0 pos
    .ok (.immediate (.word v .none), pos)

/-- A byte immediate with a role. -/
def readByteImm (B : Memory) (p0 : Nat) (flag : ImmediateFlag) (pos : Nat) : Except Error (Operand × Nat) := do
  let (b, pos) ← readByteAt B p0 pos
  .ok (.immediate (.byte b flag), pos)

/-- A word immediate with a role. -/
def readWordImm (B : Memory) (p0 : Nat) (flag : ImmediateFlag) (pos : Nat) : Except Error (Operand × Nat) := do
  let (v, pos) ← readWordAt B p0 pos
  .ok (.immediate (.word v flag), pos)

/-- `Seg(reg[1:0])` as an operand (R99). -/
def sregOperand (reg : BitVec 3) : Operand := .register (segName (segOfCode (reg.extractLsb' 0 2)))

/-- `BuildOperands` for the recipes with a ModRM byte (R90, R92, R97 to R100, R111); `E` is resolved. -/
def buildModRM (B : Memory) (p0 : Nat) (recipe : Recipe) (w : OpWidth) (E : Operand) (reg : BitVec 3) (op : Byte)
    (pos : Nat) : Except Error (List Operand × Nat) :=
  match recipe with
  | .eg => .ok ([E, .register (regName w reg)], pos)
  | .ge => .ok ([.register (regName w reg), E], pos)
  | .eI => do
    let (i, pos) ← readImm B p0 w pos
    .ok ([E, i], pos)
  | .eIs => do
    let (b, pos) ← readByteAt B p0 pos
    .ok ([E, .immediate (.word (sext16 b) .none)], pos)
  | .e => .ok ([E], pos)
  | .m => .ok ([E], pos)
  | .eOne => .ok ([E, .immediate (.byte 0x01 .implicitOne)], pos)
  | .eCl => .ok ([E, .register .CL], pos)
  | .ewS => .ok ([E, sregOperand reg], pos)
  | .sEw => .ok ([sregOperand reg, E], pos)
  | .gM => .ok ([.register (reg16 reg), E], pos)
  | .esc => .ok ([.immediate (.byte ((op.extractLsb' 0 3 ++ reg).setWidth 8) .escapeCode), E], pos)
  | _ => .ok ([], pos)

/-- `BuildOperands` for the recipes without a ModRM byte (R91, R93 to R96, R101 to R103, R112, R115). -/
def buildPlain (B : Memory) (p0 : Nat) (recipe : Recipe) (w : OpWidth) (seg : Option SegmentType) (op : Byte)
    (pos : Nat) : Except Error (List Operand × Nat) :=
  let acc : Operand := .register (regName w 0)
  let r3 : BitVec 3 := op.extractLsb' 0 3
  match recipe with
  | .accI => do
    let (i, pos) ← readImm B p0 w pos
    .ok ([acc, i], pos)
  | .reg16 => .ok ([.register (reg16 r3)], pos)
  | .axReg16 => .ok ([.register .AX, .register (reg16 r3)], pos)
  | .reg8I => do
    let (i, pos) ← readByteImm B p0 .none pos
    .ok ([.register (reg8 r3), i], pos)
  | .reg16I => do
    let (i, pos) ← readWordImm B p0 .none pos
    .ok ([.register (reg16 r3), i], pos)
  | .sreg => .ok ([.register (segName (segOfCode (op.extractLsb' 3 2)))], pos)
  | .rel8 => do
    let (i, pos) ← readByteImm B p0 .relativeJumpDisplacement pos
    .ok ([i], pos)
  | .rel16 => do
    let (i, pos) ← readWordImm B p0 .relativeJumpDisplacement pos
    .ok ([i], pos)
  | .far => do
    let (off, pos) ← readWordImm B p0 .farOffset pos
    let (segw, pos) ← readWordImm B p0 .farSegment pos
    .ok ([segw, off], pos)
  | .accMoffs => do
    let (a, pos) ← readWordAt B p0 pos
    .ok ([acc, .memory ⟨.DIRECT, .disp16 a, seg⟩], pos)
  | .moffsAcc => do
    let (a, pos) ← readWordAt B p0 pos
    .ok ([.memory ⟨.DIRECT, .disp16 a, seg⟩, acc], pos)
  | .accPort => do
    let (i, pos) ← readByteImm B p0 .portNumber pos
    .ok ([acc, i], pos)
  | .portAcc => do
    let (i, pos) ← readByteImm B p0 .portNumber pos
    .ok ([i, acc], pos)
  | .accDx => .ok ([acc, .register .DX], pos)
  | .dxAcc => .ok ([.register .DX, acc], pos)
  | .base10 => do
    let (b, pos') ← readByteAt B p0 pos
    if b = 0x0A then .ok ([], pos') else .error ⟨.invalidOperandEncoding, p0, pos, some b, none⟩
  | .iwStack => do
    let (i, pos) ← readWordImm B p0 .stackAdjust pos
    .ok ([i], pos)
  | .ibInt => do
    let (i, pos) ← readByteImm B p0 .interruptType pos
    .ok ([i], pos)
  | _ => .ok ([], pos)

/-- The rest of `Decode` once a recipe with a ModRM byte is known: the check, `ResolveRM`, `BuildOperands`. -/
def finishModRM (B : Memory) (p0 : Nat) (seg : Option SegmentType) (op m : Byte) (type : InstructionType)
    (width : DataWidth) (recipe : Recipe) (pos : Nat) : Except Error Instruction := do
  if badFields recipe (modField m) (regField m) then
    .error ⟨.invalidOperandEncoding, p0, pos - 1, some m, none⟩
  else
    let (E, pos) ← resolveRM B p0 seg (modField m) (rmField m) (rmWidth recipe width) pos
    let (operands, pos) ← buildModRM B p0 recipe width.opWidth E (regField m) op pos
    .ok ⟨op, pos - p0, type, width, operands⟩

/-- `Decode(B, p0)` (R87). `pos` after the opcode byte is `opOffset + 1`. -/
def decodeAt (B : Memory) (p0 : Nat) : Except Error Instruction := do
  let (op, pos, seg) ← readOpcode B p0 (B.size - p0 + 1) p0 none
  match primary op with
  | .unknown => .error ⟨.unknownOpcode, p0, pos - 1, some op, none⟩
  | .segPrefix _ => .error ⟨.unknownOpcode, p0, pos - 1, some op, none⟩
  | .direct type width recipe =>
    if recipe.hasModRM then do
      let (m, pos) ← readByteAt B p0 pos
      finishModRM B p0 seg op m type width recipe pos
    else do
      let (operands, pos) ← buildPlain B p0 recipe width.opWidth seg op pos
      .ok ⟨op, pos - p0, type, width, operands⟩
  | .group g width column => do
    let (m, pos') ← readByteAt B p0 pos
    match groupSlot g column (regField m) with
    | none => .error ⟨.unknownOpcode, p0, pos - 1, some op, some (regField m)⟩
    | some (type, recipe) => finishModRM B p0 seg op m type width recipe pos'

/-- What a call returns. -/
def resultOf {α : Type} : Except Error α → CallResult α
  | .ok v => .ok v
  | .error e => .err e

/-- `DecodeNext(B, p0, label)` (47_renderer.md R306, R310). -/
def decodeNext (B : Memory) (p0 : Nat) (_label : String) : CallResult Instruction := resultOf (decodeAt B p0)

/-- The loop of `GetAssembly` (R305). Each round moves `pos`, so `fuel` greater than the bytes left is enough. -/
def assemblyLoop (B : Memory) (mode : OutputValueMode) : Nat → Nat → List String → Except Error String
  | 0, _, lines => .ok (joinWith "\n" lines)
  | fuel + 1, pos, lines =>
    if pos < B.size then
      match decodeAt B pos with
      | .error e => .error e
      | .ok x => assemblyLoop B mode fuel (pos + x.length) (lines ++ [render mode x])
    else .ok (joinWith "\n" lines)

/-- `GetAssembly(B, label, mode)` (R305, R310). -/
def getAssembly (B : Memory) (_label : String) (mode : OutputValueMode) : CallResult String :=
  resultOf (assemblyLoop B mode (B.size + 1) 0 [])

end Sys2Proof.Machine
end

