-- ==== Sys2Proof/Machine/Compare.lean ====
section
/-! DEFINITION. The golden-comparison contract of the test harness with the block's text (47_renderer.md R307). -/

namespace Sys2Proof.Machine

/-- White space for trimming (log 20). -/
def isBlankChar (c : Char) : Bool := c ∈ [' ', '\t', '\r', '\n', Char.ofNat 11, Char.ofNat 12]

/-- Ends a line collected in reverse: a CR right before its LF is removed (92_eei_decisions.md D24). -/
def endLine : List Char → List Char
  | '\r' :: cs => cs.reverse
  | cs => cs.reverse

/-- Splits at LF; `acc` is the present line in reverse. -/
def splitLines (acc : List Char) : List Char → List (List Char)
  | [] => [acc.reverse]
  | c :: cs => if c = '\n' then endLine acc :: splitLines [] cs else splitLines (c :: acc) cs

/-- Trims leading and trailing white space. -/
def trimLine (l : List Char) : List Char := ((l.dropWhile isBlankChar).reverse.dropWhile isBlankChar).reverse

/-- A line is kept unless it is empty after trimming or begins with `;` (R307). -/
def keptLine : List Char → Bool
  | [] => false
  | c :: _ => c != ';'

/-- The kept lines of a text, trimmed. -/
def filterText (t : String) : List (List Char) := ((splitLines [] t.toList).map trimLine).filter keptLine

/-- ASCII lower case (D24). -/
def lowerChar (c : Char) : Char := if 'A' ≤ c ∧ c ≤ 'Z' then Char.ofNat (c.toNat + 32) else c

/-- `Matches(actual, expected)` (R307). -/
def matchesText (actual expected : String) : Bool :=
  (filterText actual).map (List.map lowerChar) == (filterText expected).map (List.map lowerChar)

/-- The round-trip property of the golden corpus under a mode (D27): a property of the open parameter, which the spec
does not claim. -/
def goldenProperty (mode : OutputValueMode) : Prop :=
  ∀ x ∈ Config.goldenCorpus, ∃ t, getAssembly (Memory.ofBytes x.bytes) x.name mode = .ok t ∧ matchesText t x.expected

end Sys2Proof.Machine
end

