-- ==== Sys2Proof/Machine/Flags.lean ====
section
/-! DEFINITION. The flag unit (46_flag_unit.md): pure, total functions of their arguments. The decoder never calls it;
a consumer calls it after decoding (R265). Nothing here is stored. -/

namespace Sys2Proof.Machine

/-! ### The functions (R267 to R276) -/

/-- The number of 1 bits of a byte. -/
def onesCount (v : Byte) : Nat := (List.range 8).countP fun k => v.getLsbD k

/-- `IsParity8` (R267). -/
def isParity8 (v : Byte) : Bool := onesCount v % 2 == 0

/-- `IsParity16` (R268): the low byte only. -/
def isParity16 (v : Word) : Bool := isParity8 (lowByte v)

/-- `Zero` (R269). -/
def zeroFlag (w : OpWidth) (r : BitVec w.bits) : Bool := r == 0

/-- `Sign` (R270). -/
def signFlag (w : OpWidth) (r : BitVec w.bits) : Bool := r.getLsbD (w.bits - 1)

/-- `CarryAdd` (R271), on unbounded naturals. -/
def carryAdd (w : OpWidth) (a b : BitVec w.bits) (c : Bool) : Bool :=
  decide (2 ^ w.bits ≤ a.toNat + b.toNat + c.toNat)

/-- `CarrySub` (R272): the borrow. -/
def carrySub (w : OpWidth) (a b : BitVec w.bits) (c : Bool) : Bool := decide (a.toNat < b.toNat + c.toNat)

/-- Outside `[-2^(n-1), 2^(n-1) - 1]` (R273, R274). -/
def outOfSignedRange (w : OpWidth) (x : Int) : Bool :=
  decide (x < -(2 : Int) ^ (w.bits - 1)) || decide ((2 : Int) ^ (w.bits - 1) - 1 < x)

/-- `OverflowAdd` (R273). -/
def overflowAdd (w : OpWidth) (a b : BitVec w.bits) (c : Bool) : Bool :=
  outOfSignedRange w (a.toInt + b.toInt + c.toNat)

/-- `OverflowSub` (R274). -/
def overflowSub (w : OpWidth) (a b : BitVec w.bits) (c : Bool) : Bool :=
  outOfSignedRange w (a.toInt - b.toInt - c.toNat)

/-- `x[3:0]` as a number. -/
def lowNibble {n : Nat} (x : BitVec n) : Nat := (x.extractLsb' 0 4).toNat

/-- `AuxAdd` (R275). -/
def auxAdd {n : Nat} (a b : BitVec n) (c : Bool) : Bool := decide (16 ≤ lowNibble a + lowNibble b + c.toNat)

/-- `AuxSub` (R276). -/
def auxSub {n : Nat} (a b : BitVec n) (c : Bool) : Bool := decide (lowNibble a < lowNibble b + c.toNat)

/-- The result of an addition with carry-in, modulo `2^n` (R277). -/
def addResult (w : OpWidth) (a b : BitVec w.bits) (c : Bool) : BitVec w.bits := a + b + BitVec.ofNat w.bits c.toNat

/-- The result of a subtraction with borrow-in, modulo `2^n` (R278). -/
def subResult (w : OpWidth) (a b : BitVec w.bits) (c : Bool) : BitVec w.bits := a - b - BitVec.ofNat w.bits c.toNat

/-! ### The classes (R277 to R281) -/

/-- What an instruction's class does with one flag: writes it, leaves it as it was (R280), or leaves it undefined
(R281), in which case a consumer may hold any value. -/
inductive FlagEffect where
  | set (b : Bool)
  | kept
  | undefined
  deriving DecidableEq, Repr

/-- The effect on the six status flags. -/
structure FlagOutcome where
  cf : FlagEffect
  pf : FlagEffect
  af : FlagEffect
  zf : FlagEffect
  sf : FlagEffect
  of : FlagEffect
  deriving DecidableEq, Repr

/-- A class's `n`-bit result and flags. -/
structure ClassResult (n : Nat) where
  r : BitVec n
  flags : FlagOutcome
  deriving DecidableEq, Repr

/-- `PF`: `IsParity8(r[7:0])` (R277 to R281). -/
def parityOfResult {n : Nat} (r : BitVec n) : Bool := isParity8 (r.extractLsb' 0 8)

/-- Add class (R277). -/
def addClass (w : OpWidth) (a b : BitVec w.bits) (c : Bool) : ClassResult w.bits :=
  let r := addResult w a b c
  ⟨r, ⟨.set (carryAdd w a b c), .set (parityOfResult r), .set (auxAdd a b c), .set (zeroFlag w r), .set (signFlag w r),
    .set (overflowAdd w a b c)⟩⟩

/-- Sub class (R278). -/
def subClass (w : OpWidth) (a b : BitVec w.bits) (c : Bool) : ClassResult w.bits :=
  let r := subResult w a b c
  ⟨r, ⟨.set (carrySub w a b c), .set (parityOfResult r), .set (auxSub a b c), .set (zeroFlag w r), .set (signFlag w r),
    .set (overflowSub w a b c)⟩⟩

/-- Neg class (R279). -/
def negClass (w : OpWidth) (x : BitVec w.bits) : ClassResult w.bits := subClass w 0 x false

/-- CF is not written (R280). -/
def keepCarry {n : Nat} (x : ClassResult n) : ClassResult n := ⟨x.r, { x.flags with cf := .kept }⟩

/-- Inc class (R280). -/
def incClass (w : OpWidth) (a : BitVec w.bits) : ClassResult w.bits := keepCarry (addClass w a 1 false)

/-- Dec class (R280). -/
def decClass (w : OpWidth) (a : BitVec w.bits) : ClassResult w.bits := keepCarry (subClass w a 1 false)

/-- The bitwise operation of a logic-class instruction. -/
inductive LogicOp where
  | and
  | or
  | xor
  deriving DecidableEq, Repr

def LogicOp.apply {n : Nat} : LogicOp → BitVec n → BitVec n → BitVec n
  | .and, a, b => a &&& b
  | .or, a, b => a ||| b
  | .xor, a, b => a ^^^ b

/-- Logic class (R281): CF and OF are 0, AF is undefined. -/
def logicClass (w : OpWidth) (o : LogicOp) (a b : BitVec w.bits) : ClassResult w.bits :=
  let r := o.apply a b
  ⟨r, ⟨.set false, .set (parityOfResult r), .undefined, .set (zeroFlag w r), .set (signFlag w r), .set false⟩⟩

/-! ### Which class an instruction has (R277 to R281, R283) -/

/-- `add` and `sub` say whether the carry-in is CF. -/
inductive FlagClass where
  | add (carryIn : Bool)
  | sub (carryIn : Bool)
  | neg
  | inc
  | dec
  | logic (o : LogicOp)
  | none
  deriving DecidableEq, Repr

/-- The flag class of an instruction type; `none` where the flag unit gives no class (R283, and the instructions whose
rule says "No flag class"). -/
def flagClass : InstructionType → FlagClass
  | .ADD => .add false | .OR => (.logic .or) | .ADC => .add true | .SBB => .sub true | .AND => (.logic .and)
  | .SUB => .sub false | .XOR => (.logic .xor) | .CMP => .sub false | .DAA => .none | .DAS => .none
  | .AAA => .none | .AAS => .none | .INC => .inc | .DEC => .dec | .PUSH => .none | .POP => .none
  | .JO => .none | .JNO => .none | .JB => .none | .JAE => .none | .JE => .none | .JNE => .none
  | .JBE => .none | .JA => .none | .JS => .none | .JNS => .none | .JP => .none | .JNP => .none | .JL => .none
  | .JGE => .none | .JLE => .none | .JG => .none | .TEST => (.logic .and) | .XCHG => .none | .MOV => .none
  | .LEA => .none | .NOP => .none | .CBW => .none | .CWD => .none | .CALL => .none | .CALLF => .none
  | .WAIT => .none | .PUSHF => .none | .POPF => .none | .SAHF => .none | .LAHF => .none | .MOVSB => .none
  | .MOVSW => .none | .CMPSB => .sub false | .CMPSW => .sub false | .STOSB => .none | .STOSW => .none
  | .LODSB => .none | .LODSW => .none | .SCASB => .sub false | .SCASW => .sub false | .RET => .none
  | .RETF => .none | .LES => .none | .LDS => .none | .INT3 => .none | .INT => .none | .INTO => .none
  | .IRET => .none | .ROL => .none | .ROR => .none | .RCL => .none | .RCR => .none | .SHL => .none
  | .SHR => .none | .SAR => .none | .AAM => .none | .AAD => .none | .XLAT => .none | .ESC => .none
  | .LOOPNZ => .none | .LOOPZ => .none | .LOOP => .none | .JCXZ => .none | .IN => .none | .OUT => .none
  | .JMP => .none | .JMPF => .none | .LOCK => .none | .REPNE => .none | .REP => .none | .HLT => .none
  | .CMC => .none | .NOT => .none | .NEG => .neg | .MUL => .none | .IMUL => .none | .DIV => .none
  | .IDIV => .none | .CLC => .none | .STC => .none | .CLI => .none | .STI => .none | .CLD => .none
  | .STD => .none

/-- CMP, CMPS, SCAS and TEST use the flags and discard the result (R278, R281). -/
def discardsResult (t : InstructionType) : Bool :=
  t ∈ [.CMP, .CMPSB, .CMPSW, .SCASB, .SCASW, .TEST]

/-- The flag-unit calls of a consumer for an instruction of type `t` and width `w` on operand values `a`, `b`, with its
present CF (R277 to R281); one-operand classes read `a`. `none` where the unit gives no class. -/
def classResult (t : InstructionType) (w : OpWidth) (a b : BitVec w.bits) (cf : Bool) : Option (ClassResult w.bits) :=
  match flagClass t with
  | .add useCarry => some (addClass w a b (useCarry && cf))
  | .sub useCarry => some (subClass w a b (useCarry && cf))
  | .neg => some (negClass w a)
  | .inc => some (incClass w a)
  | .dec => some (decClass w a)
  | .logic o => some (logicClass w o a b)
  | .none => none

/-! ### FLAGS, for a consumer that packs them (R282) -/

/-- The flags of the FLAGS register. -/
inductive FlagName where
  | CF
  | PF
  | AF
  | ZF
  | SF
  | TF
  | IF
  | DF
  | OF
  deriving DecidableEq, Repr

/-- The bit of FLAGS that holds a flag (R282). -/
def FlagName.bit : FlagName → Nat
  | .CF => 0
  | .PF => 2
  | .AF => 4
  | .ZF => 6
  | .SF => 7
  | .TF => 8
  | .IF => 9
  | .DF => 10
  | .OF => 11

def readFlag (f : FlagName) (flags : Word) : Bool := flags.getLsbD f.bit

/-- Writes one flag and leaves every other bit. R282 says only that bits 1, 3, 5 and 12 to 15 hold no flag: that they keep
their value is the model's choice (log 32). -/
def writeFlag (f : FlagName) (b : Bool) (flags : Word) : Word :=
  if b then flags ||| BitVec.twoPow 16 f.bit else flags &&& ~~~ BitVec.twoPow 16 f.bit

/-- One effect on a packed flag; `free` is the value an undefined flag takes, any value (93_implementation_defined.md
U9; log 15). -/
def FlagEffect.apply (free : Bool) (f : FlagName) (e : FlagEffect) (flags : Word) : Word :=
  match e with
  | .set b => writeFlag f b flags
  | .kept => flags
  | .undefined => writeFlag f free flags

/-- A consumer's FLAGS after an instruction of a class. TF, IF, DF are written by no class (R282); that the bits which hold
no flag keep their value is the model's choice (log 32). -/
def FlagOutcome.apply (free : Bool) (o : FlagOutcome) (flags : Word) : Word :=
  o.of.apply free .OF (o.sf.apply free .SF (o.zf.apply free .ZF (o.af.apply free .AF (o.pf.apply free .PF
    (o.cf.apply free .CF flags)))))

end Sys2Proof.Machine
end

