-- ==== Sys2Proof/Machine/Consumer.lean ====
section
/-! DEFINITION. What the spec's numbered rules tell a CONSUMER that holds 8086 register values, as pure functions: the
register file, effective address, default segment, physical address, the arguments of a flag class, relative target, vector address
(10_state.md R39; 20_memory.md R58 to R60; 43_string.md R204 to R207; 44_control_transfer.md R245; 60_exceptions.md R330;
70_reset_and_hazards.md R354). The block holds none of these values and no step reads this file (log 23). -/

namespace Sys2Proof.Machine

/-- The 8086 register file as a consumer holds it (R39). -/
structure Registers8086 where
  ax : Word
  cx : Word
  dx : Word
  bx : Word
  sp : Word
  bp : Word
  si : Word
  di : Word
  es : Word
  cs : Word
  ss : Word
  ds : Word
  ip : Word
  flags : Word
  deriving DecidableEq, Repr

/-- The value a register name reads as: 8 bits for a byte register, which aliases half of a word register (R39). -/
inductive RegisterValue where
  | byte (b : Byte)
  | word (v : Word)
  deriving DecidableEq, Repr

def Registers8086.read (r : Registers8086) : RegisterType → RegisterValue
  | .AL => .byte (lowByte r.ax)
  | .CL => .byte (lowByte r.cx)
  | .DL => .byte (lowByte r.dx)
  | .BL => .byte (lowByte r.bx)
  | .AH => .byte (highByte r.ax)
  | .CH => .byte (highByte r.cx)
  | .DH => .byte (highByte r.dx)
  | .BH => .byte (highByte r.bx)
  | .AX => .word r.ax
  | .CX => .word r.cx
  | .DX => .word r.dx
  | .BX => .word r.bx
  | .SP => .word r.sp
  | .BP => .word r.bp
  | .SI => .word r.si
  | .DI => .word r.di
  | .ES => .word r.es
  | .CS => .word r.cs
  | .SS => .word r.ss
  | .DS => .word r.ds

/-- A base or index register's value, 0 where the form has none (20_memory.md R58). -/
def Registers8086.baseValue (r : Registers8086) : Option RegisterType → Word
  | none => 0
  | some x =>
    match r.read x with
    | .word v => v
    | .byte b => b.setWidth 16

/-- The effective address (R58), modulo 2^16. -/
def effectiveAddress (r : Registers8086) (m : MemRef) : Word :=
  r.baseValue m.ea.base + r.baseValue m.ea.index + m.disp.value

/-- The implicit default segment (R59). -/
def defaultSegment : EAForm → SegmentType
  | .BP_SI => .SS
  | .BP_DI => .SS
  | .BP => .SS
  | .BX_SI => .DS
  | .BX_DI => .DS
  | .SI => .DS
  | .DI => .DS
  | .BX => .DS
  | .DIRECT => .DS

/-- The segment a memory operand is in: its override, or the default (R59). -/
def segmentOf (m : MemRef) : SegmentType := m.seg.getD (defaultSegment m.ea)

def Registers8086.segment (r : Registers8086) : SegmentType → Word
  | .ES => r.es
  | .CS => r.cs
  | .SS => r.ss
  | .DS => r.ds

/-- The physical address of segment and offset, modulo 2^20 (R60). -/
def physicalAddress (seg off : Word) : Nat := (16 * seg.toNat + off.toNat) % 2 ^ 20

/-- The physical address a memory operand names (R58 to R60). -/
def operandAddress (r : Registers8086) (m : MemRef) : Nat :=
  physicalAddress (r.segment (segmentOf m)) (effectiveAddress r m)

/-! ### The arguments of a flag class -/

/-- Where a consumer finds an argument of a flag class: an operand of the instruction, or the byte or word of data memory
at a segment and index register (43_string.md R204 to R207). -/
inductive ValueSource where
  | operand (o : Operand)
  | stringElement (seg : SegmentType) (index : RegisterType)
  deriving DecidableEq, Repr

/-- The arguments `a`, `b` of an instruction's flag class, in that order. CMPS subtracts the element at ES:DI from the one
at DS:SI, SCAS the one at ES:DI from AL or AX (R204 to R207); every other instruction's are its operands in their order
(46_flag_unit.md R277 to R281). An override does not reach the string elements (30_encoding.md R86). -/
def classArguments (x : Instruction) : List ValueSource :=
  match x.type with
  | .CMPSB => [.stringElement .DS .SI, .stringElement .ES .DI]
  | .CMPSW => [.stringElement .DS .SI, .stringElement .ES .DI]
  | .SCASB => [.operand (.register .AL), .stringElement .ES .DI]
  | .SCASW => [.operand (.register .AX), .stringElement .ES .DI]
  | _ => x.operands.map ValueSource.operand

/-- A register's value at an operand's width; a register operand of a class has that width (10_state.md R29). -/
def RegisterValue.atWidth (w : OpWidth) : RegisterValue → BitVec w.bits
  | .byte b => b.setWidth w.bits
  | .word v => v.setWidth w.bits

/-- The bits of an immediate at an operand's width, which is its own (30_encoding.md R80, R81). -/
def Imm.atWidth (w : OpWidth) : Imm → BitVec w.bits
  | .byte b _ => b.setWidth w.bits
  | .word v _ => v.setWidth w.bits

/-- A consumer's data memory, as its address-resolution service gives it: the byte or word at segment and offset. The spec
leaves the service, and the byte order of a word in data memory, to the consumer (20_memory.md R60, R61). -/
abbrev DataMemory := (w : OpWidth) → (seg off : Word) → BitVec w.bits

/-- The value of a class argument (10_state.md R39; 20_memory.md R58, R59; 43_string.md R204 to R207). -/
def ValueSource.value (w : OpWidth) (r : Registers8086) (mem : DataMemory) : ValueSource → BitVec w.bits
  | .operand (.register x) => (r.read x).atWidth w
  | .operand (.immediate i) => i.atWidth w
  | .operand (.memory m) => mem w (r.segment (segmentOf m)) (effectiveAddress r m)
  | .stringElement seg index => mem w (r.segment seg) (r.baseValue (some index))

/-- The result and flags a consumer's flag-unit calls give for a decoded instruction, with its registers, memory and CF
(46_flag_unit.md R277 to R281); `none` where the unit gives no class. -/
def consumerClass (r : Registers8086) (mem : DataMemory) (x : Instruction) :
    Option (ClassResult x.width.opWidth.bits) :=
  let w := x.width.opWidth
  match (classArguments x).map (ValueSource.value w r mem) with
  | [a] => classResult x.type w a 0 (readFlag .CF r.flags)
  | [a, b] => classResult x.type w a b (readFlag .CF r.flags)
  | _ => none

/-- "The address following the instruction" (10_state.md R40; 44_control_transfer.md R245). -/
def nextOffset (p0 : Nat) (x : Instruction) : Nat := p0 + x.length

/-- The target of a relative jump decoded at `p0` (R245); `none` for an instruction without a relative displacement. -/
def relativeTarget (p0 : Nat) (x : Instruction) : Option Int :=
  match x.operands with
  | [.immediate i] => if i.flag = .relativeJumpDisplacement then some (nextOffset p0 x + i.sint) else none
  | _ => none

/-- The target a consumer that holds IP uses: reduced modulo 2^16 (R245). -/
def relativeTarget16 (p0 : Nat) (x : Instruction) : Option Word := (relativeTarget p0 x).map (BitVec.ofInt 16)

/-! ### Interrupt vectors -/

/-- An interrupt vector: where the handler starts (60_exceptions.md R330). -/
structure InterruptVector where
  offset : Word
  segment : Word
  deriving DecidableEq, Repr

/-- The size of the vector table, which starts at physical address 0 (R330). -/
def vectorTableBytes : Nat := 0x400

/-- The physical address of a vector, 4 bytes each (R330). -/
def vectorAddress (n : Byte) : Nat := 4 * n.toNat

/-- The physical address of a vector's offset word, its first (R330). -/
def vectorOffsetAddress (n : Byte) : Nat := vectorAddress n

/-- The physical address of a vector's segment word, its second (R330). -/
def vectorSegmentAddress (n : Byte) : Nat := vectorAddress n + 2

/-- Vector `n` as a consumer reads it, with the word that its memory gives at a physical address; the spec gives a word in
data memory no byte order (R330; log 31). -/
def readVector (wordAt : Nat → Word) (n : Byte) : InterruptVector :=
  ⟨wordAt (vectorOffsetAddress n), wordAt (vectorSegmentAddress n)⟩

/-- The two words that a consumer places to set up vector `n`, by physical address (R330; 70_reset_and_hazards.md R356). -/
def vectorWords (n : Byte) (v : InterruptVector) : List (Nat × Word) :=
  [(vectorOffsetAddress n, v.offset), (vectorSegmentAddress n, v.segment)]

/-- The physical address of a vector's handler (R330; 20_memory.md R60). -/
def InterruptVector.handler (v : InterruptVector) : Nat := physicalAddress v.segment v.offset

/-- The dedicated vectors (R330). -/
inductive DedicatedVector where
  | divideError
  | singleStep
  | nmi
  | breakpoint
  | overflow
  deriving DecidableEq, Repr

/-- The number of a dedicated vector (R330). -/
def DedicatedVector.number : DedicatedVector → Byte
  | .divideError => 0
  | .singleStep => 1
  | .nmi => 2
  | .breakpoint => 3
  | .overflow => 4

/-- The sizes of the spaces that operands name and the block does not access (20_memory.md R61). -/
def dataMemoryBytes : Nat := 2 ^ 20

def ioPorts : Nat := 2 ^ 16

/-- The 8086 reset state as far as the spec gives it (70_reset_and_hazards.md R354); the general registers are
unspecified, so this is a property and not a value. -/
def Registers8086.atReset (r : Registers8086) : Prop :=
  r.cs = 0xFFFF ∧ r.ip = 0 ∧ r.ds = 0 ∧ r.ss = 0 ∧ r.es = 0 ∧ r.flags = 0

end Sys2Proof.Machine
end

