-- ==== Sys2Proof/Safety.lean ====
section
/-! DEFINITION. What counts as a safe run: the invariant of the machine's states, and the words in which the claims are
stated. -/

namespace Sys2Proof.Machine

/-- The phase sequences of a call that has completed (10_state.md R23): ModRMRead, DisplacementRead and ImmediateRead are
each skipped where the recipe has no such field, and DisplacementRead needs a ModRM byte. -/
def completedTrails : List (List Phase) :=
  [[.start, .opcodeRead, .complete],
   [.start, .opcodeRead, .immediateRead, .complete],
   [.start, .opcodeRead, .modrmRead, .complete],
   [.start, .opcodeRead, .modrmRead, .immediateRead, .complete],
   [.start, .opcodeRead, .modrmRead, .displacementRead, .complete],
   [.start, .opcodeRead, .modrmRead, .displacementRead, .immediateRead, .complete]]

/-- The phase sequences that a failing call passes before it fails (10_state.md R23; 30_encoding.md R87; log 30): a missing
byte is found in the phase before its own, but for an immediate's, which is entered first. -/
def failedTrails : List (List Phase) :=
  [[.start],
   [.start, .opcodeRead],
   [.start, .opcodeRead, .immediateRead],
   [.start, .opcodeRead, .modrmRead],
   [.start, .opcodeRead, .modrmRead, .immediateRead],
   [.start, .opcodeRead, .modrmRead, .displacementRead, .immediateRead]]

/-- The latches have the values that stand for "unwritten" (70_reset_and_hazards.md R351). -/
def State.latchesUnwritten (s : State) : Prop :=
  s.op = 0 ∧ s.opOffset = 0 ∧ s.entry = .unknown ∧ s.mod = 0 ∧ s.reg = 0 ∧ s.rm = 0 ∧ s.modrmOffset = 0 ∧
    s.disp = .noDisp ∧ s.imm1 = .byte 0 .none ∧ s.imm2 = .byte 0 .none

/-- What the phase says of the result port and the latches. -/
def State.phaseOk (s : State) : Prop :=
  match s.phase with
  | .start =>
    -- a call that has read nothing but segment-override prefixes, whose last one is in `seg`
    s.result = none ∧ s.trail = [.start] ∧ s.latchesUnwritten ∧ (s.seg = none ↔ s.pos = s.p0)
  | .complete =>
    s.trail ∈ completedTrails ∧ 1 ≤ s.pos - s.p0 ∧
      ∃ x : Instruction, s.result = some (.ok x) ∧ x.opcodeByte = s.op ∧ x.length = s.pos - s.p0 ∧ x.operands.length ≤ 2
  | .failed e =>
    s.result = some (.err e) ∧ e.start = s.p0 ∧ s.p0 ≤ e.offset ∧ e.offset ≤ s.buf.size ∧ s.pos = e.cursor ∧
      s.latchesUnwritten ∧ s.seg = none ∧ ∃ w ∈ failedTrails, s.trail = w ++ [.failed e]
  | .opcodeRead | .modrmRead | .displacementRead | .immediateRead => False

/-- What `GetAssembly` has returned agrees with the phase (47_renderer.md R305; 60_exceptions.md R327). -/
def State.textOk (s : State) : Prop :=
  match s.entryPoint, s.text with
  | .decodeNext, t => t = none
  | .getAssembly, none => ∀ e, s.phase ≠ .failed e
  | .getAssembly, some (.ok t) => s.pos = s.buf.size ∧ s.atBoundary = true ∧ t = joinWith "\n" s.lines
  | .getAssembly, some (.err e) => s.phase = .failed e ∧ s.lines = []

/-- The invariant: the buffer is admitted and canonical, the cursor lies between the instruction start and the end of the
buffer, so every offset and length fits in u32 (00_scope.md R8), and phase, result and text agree. -/
structure State.Inv (s : State) : Prop where
  wf : s.buf.wf = true
  admitted : s.buf.admitted = true
  start_le : s.p0 ≤ s.pos
  pos_le : s.pos ≤ s.buf.size
  phase : s.phaseOk
  text : s.textOk

/-- The bytes of an instruction stand in the buffer at the cursor. -/
def State.holds (s : State) (i : Instr) : Prop := ∃ rest, s.fetch = encode i ++ rest

/-- There is room for an instruction's bytes between the cursor and the end of the buffer. -/
def State.hasRoom (s : State) (i : Instr) : Prop := s.pos + (encode i).length ≤ s.buf.size

/-- The state is in the domain and in the middle of its work: a step decodes a unit (47_renderer.md R305). -/
def State.running (s : State) : Prop :=
  s.buf.admitted = true ∧ s.pos ≤ s.buf.size ∧ (∀ e, s.phase ≠ .failed e) ∧ s.returned = false ∧ s.exhausted = false

/-- Where a call stops whose buffer ends inside an instruction of which it holds `bytes`: the phases it has passed, and the
offset of the first byte of the field that is cut (20_memory.md R54; 30_encoding.md R87; log 30). -/
def cutAt (bytes : List Byte) : List Phase × Nat :=
  match bytes with
  | [] => ([], 0)
  | [op] => (if (primary op).hasModRM then [.opcodeRead] else [.opcodeRead, .immediateRead], 1)
  | op :: m :: rest =>
    if (primary op).hasModRM then
      if dispBytes m = 0 then ([.opcodeRead, .modrmRead, .immediateRead], 2)
      else if rest.length < dispBytes m then ([.opcodeRead, .modrmRead], 2)
      else ([.opcodeRead, .modrmRead, .displacementRead, .immediateRead], 2 + dispBytes m)
    else ([.opcodeRead, .immediateRead], if rest = [] then 1 else 3)

/-- `r` is the completed decode, from state `s`, of `n` bytes with this opcode byte, type, width and operands: the call
has ended with `Ok` (30_encoding.md R87, R104 to R106). -/
def completesWith (s : State) (n : Nat) (op : Byte) (type : InstructionType) (width : DataWidth) (operands : List Operand)
    (r : Result) : Prop :=
  ∃ t, r = .next t ∧ t.phase = .complete ∧ t.pos = s.pos + n ∧ t.op = op ∧ t.opOffset = s.pos ∧ t.entry = primary op ∧
    t.result = some (.ok ⟨op, s.pos + n - s.p0, type, width, operands⟩)

/-- `r` is the completed decode, from state `s`, of a relative jump by `z`, or by `v` modulo 2^16: its target is counted
from the cursor after the instruction (44_control_transfer.md R245). -/
def targets (s : State) (z : Int) (v : Word) (r : Result) : Prop :=
  ∃ t x, r = .next t ∧ t.result = some (.ok x) ∧ nextOffset s.p0 x = t.pos ∧
    relativeTarget s.p0 x = some ((t.pos : Int) + z) ∧ relativeTarget16 s.p0 x = some (BitVec.ofNat 16 t.pos + v)

/-- The bytes of an immediate field stand in a buffer at an offset, low byte first (20_memory.md R55). -/
def Imm.readAt (i : Imm) (B : Memory) (q : Nat) : Prop :=
  match i with
  | .byte b _ => B.read q = some b
  | .word v _ => B.read q = some (lowByte v) ∧ B.read (q + 1) = some (highByte v)

/-- The bytes of a form with a ModRM byte, without its immediate: opcode, ModRM, displacement (30_encoding.md R116). -/
def rmLength (e : RM) : Nat :=
  match e with
  | .reg _ => 2
  | .mem (.direct _) => 4
  | .mem (.noDisp _) => 2
  | .mem (.disp8 _ _) => 3
  | .mem (.disp16 _ _) => 4

/-- The bytes of a data immediate (R80). -/
def dataLength : Data → Nat
  | .byte _ => 1
  | .word _ => 2

/-- Two outcomes are of the same kind, next states related by `R` and stops equal. -/
def related (R : State → State → Prop) (a b : Result) : Prop :=
  match a, b with
  | .next s, .next t => R s t
  | .fault x, .fault y => x = y
  | .refused x, .refused y => x = y
  | _, _ => False

/-- `s` and `t` differ at most in the latches that a call starts without (70_reset_and_hazards.md R351), `seg` apart. -/
def State.sameButLatches (s t : State) : Prop := s.clearLatches = t.clearLatches ∧ s.seg = t.seg

/-- `s` and `t` differ at most in the mode and in what it may change: the rendered lines and the text they make. Both
have returned their text, or neither has (00_scope.md R9; 47_renderer.md R290). -/
def State.sameDecode (s t : State) : Prop :=
  { s with mode := .asInteger, lines := [], text := none } = { t with mode := .asInteger, lines := [], text := none } ∧
    s.text.isSome = t.text.isSome

/-- The segment-override prefix byte of a segment register (30_encoding.md R85). -/
def segPrefixByte : SegmentType → Byte
  | .ES => 0x26
  | .CS => 0x2E
  | .SS => 0x36
  | .DS => 0x3E

/-! ### The instructions of one shape, with the opcode and type the spec gives each -/

/-- The eight ALU instructions: opcode base and type (41_arithmetic.md R150, R151, R155, R156, R159; 42_logic.md R188, R190,
R191). -/
def aluTable : List ((AluForm → Instr) × Byte × InstructionType) :=
  [(.add, 0x00, .ADD), (.or, 0x08, .OR), (.adc, 0x10, .ADC), (.sbb, 0x18, .SBB), (.and, 0x20, .AND), (.sub, 0x28, .SUB),
   (.xor, 0x30, .XOR), (.cmp, 0x38, .CMP)]

/-- Group 3 with recipe `E` (41_arithmetic.md R158, R162, R163, R165, R166; 42_logic.md R180). -/
def unaryTable : List ((OpWidth → RM → Instr) × InstructionType) :=
  [(.not, .NOT), (.neg, .NEG), (.mul, .MUL), (.imul, .IMUL), (.div, .DIV), (.idiv, .IDIV)]

/-- Group 2 (42_logic.md R181 to R187). -/
def shiftTable : List ((ShiftCount → OpWidth → RM → Instr) × InstructionType) :=
  [(.rol, .ROL), (.ror, .ROR), (.rcl, .RCL), (.rcr, .RCR), (.shl, .SHL), (.shr, .SHR), (.sar, .SAR)]

/-- Recipe `G,M` (40_data_transfer.md R131 to R133). -/
def loadAddressTable : List ((BitVec 3 → Mem → Instr) × Byte × InstructionType) :=
  [(.lea, 0x8D, .LEA), (.lds, 0xC5, .LDS), (.les, 0xC4, .LES)]

/-- The conditional jumps and loops, recipe `REL8` (44_control_transfer.md R221 to R240). -/
def shortJumpTable : List ((Byte → Instr) × Byte × InstructionType) :=
  [(.jo, 0x70, .JO), (.jno, 0x71, .JNO), (.jb, 0x72, .JB), (.jae, 0x73, .JAE), (.je, 0x74, .JE), (.jne, 0x75, .JNE),
   (.jbe, 0x76, .JBE), (.ja, 0x77, .JA), (.js, 0x78, .JS), (.jns, 0x79, .JNS), (.jp, 0x7A, .JP), (.jnp, 0x7B, .JNP)] ++
  [(.jl, 0x7C, .JL), (.jge, 0x7D, .JGE), (.jle, 0x7E, .JLE), (.jg, 0x7F, .JG), (.loopnz, 0xE0, .LOOPNZ),
   (.loopz, 0xE1, .LOOPZ), (.loop, 0xE2, .LOOP), (.jcxz, 0xE3, .JCXZ)]

/-- The string instructions with recipe `-` (43_string.md R200 to R211). -/
def stringTable : List (Instr × Byte × InstructionType × DataWidth) :=
  [(.rep, 0xF3, .REP, .none), (.repne, 0xF2, .REPNE, .none), (.movsb, 0xA4, .MOVSB, .byte), (.movsw, 0xA5, .MOVSW, .word),
   (.cmpsb, 0xA6, .CMPSB, .byte), (.cmpsw, 0xA7, .CMPSW, .word), (.scasb, 0xAE, .SCASB, .byte),
   (.scasw, 0xAF, .SCASW, .word), (.lodsb, 0xAC, .LODSB, .byte), (.lodsw, 0xAD, .LODSW, .word),
   (.stosb, 0xAA, .STOSB, .byte), (.stosw, 0xAB, .STOSW, .word)]

/-- The other instructions with recipe `-`, all of width None (40_data_transfer.md R130, R134 to R137; 41_arithmetic.md
R153, R154, R160, R161, R168, R169; 44_control_transfer.md R242 to R244; 45_processor_control.md R250 to R258, R260,
R261). -/
def bareTable : List (Instr × Byte × InstructionType) :=
  [(.xlat, 0xD7, .XLAT), (.lahf, 0x9F, .LAHF), (.sahf, 0x9E, .SAHF), (.pushf, 0x9C, .PUSHF), (.popf, 0x9D, .POPF),
   (.aaa, 0x37, .AAA), (.daa, 0x27, .DAA), (.aas, 0x3F, .AAS), (.das, 0x2F, .DAS), (.cbw, 0x98, .CBW), (.cwd, 0x99, .CWD),
   (.int3, 0xCC, .INT3), (.into, 0xCE, .INTO), (.iret, 0xCF, .IRET)] ++
  [(.clc, 0xF8, .CLC), (.cmc, 0xF5, .CMC), (.stc, 0xF9, .STC), (.cld, 0xFC, .CLD), (.std, 0xFD, .STD), (.cli, 0xFA, .CLI),
   (.sti, 0xFB, .STI), (.hlt, 0xF4, .HLT), (.wait, 0x9B, .WAIT), (.lock, 0xF0, .LOCK), (.nop, 0x90, .NOP)]

/-- The instruction types and their names as 10_state.md R38 lists them (47_renderer.md R291). -/
def mnemonicTable : List (InstructionType × String) :=
  [(InstructionType.ADD, "ADD"), (.OR, "OR"), (.ADC, "ADC"), (.SBB, "SBB"), (.AND, "AND"), (.SUB, "SUB"),
   (.XOR, "XOR"), (.CMP, "CMP"), (.DAA, "DAA"), (.DAS, "DAS"), (.AAA, "AAA"), (.AAS, "AAS"), (.INC, "INC"),
   (.DEC, "DEC"), (.PUSH, "PUSH"), (.POP, "POP"), (.JO, "JO"), (.JNO, "JNO"), (.JB, "JB"), (.JAE, "JAE")] ++
  [(InstructionType.JE, "JE"), (.JNE, "JNE"), (.JBE, "JBE"), (.JA, "JA"), (.JS, "JS"), (.JNS, "JNS"), (.JP, "JP"),
   (.JNP, "JNP"), (.JL, "JL"), (.JGE, "JGE"), (.JLE, "JLE"), (.JG, "JG"), (.TEST, "TEST"), (.XCHG, "XCHG"),
   (.MOV, "MOV"), (.LEA, "LEA"), (.NOP, "NOP"), (.CBW, "CBW"), (.CWD, "CWD"), (.CALL, "CALL")] ++
  [(InstructionType.CALLF, "CALLF"), (.WAIT, "WAIT"), (.PUSHF, "PUSHF"), (.POPF, "POPF"), (.SAHF, "SAHF"),
   (.LAHF, "LAHF"), (.MOVSB, "MOVSB"), (.MOVSW, "MOVSW"), (.CMPSB, "CMPSB"), (.CMPSW, "CMPSW"), (.STOSB, "STOSB"),
   (.STOSW, "STOSW"), (.LODSB, "LODSB"), (.LODSW, "LODSW"), (.SCASB, "SCASB"), (.SCASW, "SCASW"), (.RET, "RET"),
   (.RETF, "RETF"), (.LES, "LES"), (.LDS, "LDS")] ++
  [(InstructionType.INT3, "INT3"), (.INT, "INT"), (.INTO, "INTO"), (.IRET, "IRET"), (.ROL, "ROL"), (.ROR, "ROR"),
   (.RCL, "RCL"), (.RCR, "RCR"), (.SHL, "SHL"), (.SHR, "SHR"), (.SAR, "SAR"), (.AAM, "AAM"), (.AAD, "AAD"),
   (.XLAT, "XLAT"), (.ESC, "ESC"), (.LOOPNZ, "LOOPNZ"), (.LOOPZ, "LOOPZ"), (.LOOP, "LOOP"), (.JCXZ, "JCXZ"),
   (.IN, "IN")] ++
  [(InstructionType.OUT, "OUT"), (.JMP, "JMP"), (.JMPF, "JMPF"), (.LOCK, "LOCK"), (.REPNE, "REPNE"), (.REP, "REP"),
   (.HLT, "HLT"), (.CMC, "CMC"), (.NOT, "NOT"), (.NEG, "NEG"), (.MUL, "MUL"), (.IMUL, "IMUL"), (.DIV, "DIV"),
   (.IDIV, "IDIV"), (.CLC, "CLC"), (.STC, "STC"), (.CLI, "CLI"), (.STI, "STI"), (.CLD, "CLD"), (.STD, "STD")]

/-- The 23 opcode bytes with no entry (30_encoding.md R107). -/
def unknownOpcodeBytes : List Byte :=
  [0x0F, 0x60, 0x61, 0x62, 0x63, 0x64, 0x65, 0x66, 0x67, 0x68, 0x69, 0x6A] ++
  [0x6B, 0x6C, 0x6D, 0x6E, 0x6F, 0xC0, 0xC1, 0xC8, 0xC9, 0xD6, 0xF1]

/-- The group sub-opcodes with no entry (30_encoding.md R108). -/
def unknownGroupSlot (op : Byte) (reg : BitVec 3) : Prop :=
  (op ∈ [0xD0#8, 0xD1#8, 0xD2#8, 0xD3#8] ∧ reg = 6) ∨
  (op ∈ [0xF6#8, 0xF7#8] ∧ reg = 1) ∨
  (op = 0xFE ∧ 2 ≤ reg.toNat) ∨
  (op = 0xFF ∧ reg = 7) ∨
  (op = 0x8F ∧ 1 ≤ reg.toNat) ∨
  (op ∈ [0xC6#8, 0xC7#8] ∧ 1 ≤ reg.toNat)

/-- The byte after the opcode breaks a field check (30_encoding.md R109) or is no 0x0A (R112). -/
def invalidSecondByte (op m : Byte) : Prop :=
  (op ∈ [0x8D#8, 0xC4#8, 0xC5#8] ∧ modField m = 3) ∨
  (op = 0xFF ∧ (regField m = 3 ∨ regField m = 5) ∧ modField m = 3) ∨
  (op ∈ [0x8C#8, 0x8E#8] ∧ 4 ≤ (regField m).toNat) ∨
  (op = 0x8E ∧ regField m = 1) ∨
  (op ∈ [0xD4#8, 0xD5#8] ∧ m ≠ 0x0A)

/-- The instructions whose flag outcome no source gives (46_flag_unit.md R283). -/
def noFlagClassTypes : List InstructionType :=
  [.SHL, .SHR, .SAR, .ROL, .ROR, .RCL, .RCR, .MUL, .IMUL, .DIV, .IDIV, .AAA, .AAS, .DAA, .DAS, .AAM, .AAD, .NOT] ++
  [.SAHF, .POPF, .IRET, .CLC, .CMC, .STC, .CLD, .STD, .CLI, .STI]

end Sys2Proof.Machine
end

