-- ==== Sys2Proof/Certificates/Slice0/Obligations.lean ====
section
/-! DEFINITION. The statements for the provers. Each docstring names the rule of spec/ it formalises, or says which of the
model's choices it is about. -/

open Sys2Proof Sys2Proof.Machine

/-! ### Reset, calls and the invariant -/

/-- R351, R352 (log 6 for the inputs of the reset state): a call starts at its start offset with phase Start, no segment
override, no result and no lines, and the reset state is `GetAssembly`'s call on the empty buffer at offset 0. That a
`GetAssembly` call may start at another offset is the model's choice (log 29). -/
def Obligations.CallsStartInInitialState : Prop :=
  (∀ (entryPoint : EntryPoint) (B : Memory) (p0 : Nat) (label : String) (mode : OutputValueMode),
    let s := State.ofCall entryPoint B p0 label mode
    s.buf = B ∧ s.pos = p0 ∧ s.phase = .start ∧ s.p0 = p0 ∧ s.seg = none ∧ s.result = none ∧ s.lines = [] ∧
      s.text = none ∧ (s.Inv ↔ B.wf = true ∧ B.admitted = true ∧ p0 ≤ B.size)) ∧
  State.reset = State.ofCall .getAssembly Memory.empty 0 "" .asInteger

/-- The reset state meets the invariant. -/
def Obligations.ResetMeetsInvariant : Prop := State.reset.Inv

/-- Every step keeps the invariant: the buffer stays canonical and admitted, the cursor between the instruction start and
the end of the buffer, a completed call's length and opcode byte are what its latches say, a failed call carries its
Error and has passed phases that precede a failure, and the text agrees with both. The values of unwritten latches, the
cursor of a failed call and the phase of a missing byte in it are the model's choices (log 5, log 18, log 30). -/
def Obligations.StepPreservesInvariant : Prop := ∀ s t : State, s.Inv → step s = .next t → t.Inv

/-- R351: no result depends on the unwritten latches. Two states that differ in nothing else step alike. -/
def Obligations.NoResultDependsOnLatches : Prop :=
  ∀ s t : State, s.sameButLatches t → related State.sameButLatches (step s) (step t)

/-- R310, R12: `label` has no effect on a step. -/
def Obligations.LabelHasNoEffect : Prop :=
  ∀ (s : State) (l : String), related (fun a b => a = { b with label := l }) (step { s with label := l }) (step s)

/-- R9, R37: the mode does not affect decode. Two states that differ in the mode and the lines and text it shaped step
alike. -/
def Obligations.ModeDoesNotAffectDecode : Prop :=
  ∀ s t : State, s.sameDecode t → related State.sameDecode (step s) (step t)

/-- R57, R64: a step writes no byte of the buffer and no input. -/
def Obligations.StepWritesNoInput : Prop :=
  ∀ s t : State, step s = .next t →
    t.buf = s.buf ∧ (∀ a, t.buf.read a = s.buf.read a) ∧ t.label = s.label ∧ t.mode = s.mode ∧ t.entryPoint = s.entryPoint

/-- R334: from every state of the invariant the call ends, with its return or its failure, within as many steps as bytes
are left and one more. -/
def Obligations.CallEnds : Prop :=
  ∀ s : State, s.Inv → ∃ k t, k ≤ s.buf.size - s.pos + 1 ∧ Sys2Proof.core.run k s = .next t ∧
    (t.returned = true ∨ ∃ e, t.phase = .failed e)

/-! ### Encoding -/

/-- Words written out from the spec's encodings (R72, R84, R85, R90, R92, R98, R99, R111, R112). -/
def Obligations.SpecWordsDecode : Prop :=
  decode [0x00, 0b11011000] = .ok (.add (.eg .byte (.reg 0) 3), []) ∧
  decode [0x02, 0b11000011] = .ok (.add (.ge .byte 0 (.reg 3)), []) ∧
  decode [0x05, 0x03, 0xF0] = .ok (.add (.accI (.word 0xF003)), []) ∧
  decode [0x83, 0b11000110, 0xFE] = .ok (.add (.eIs (.reg 6) 0xFE), []) ∧
  decode [0x8B, 0b01000001, 0xDB] = .ok (.mov (.ge .word 0 (.mem (.disp8 1 0xDB))), []) ∧
  decode [0xFF, 0b00110110, 0x00, 0x01] = .ok (.push (.rm (.mem (.direct 0x0100))), []) ∧
  decode [0xD1, 0b11100011] = .ok (.shl .one .word (.reg 3), []) ∧
  decode [0x9A, 0x00, 0x10, 0x00, 0xF0] = .ok (.callf (.far 0x1000 0xF000), []) ∧
  decode [0x7D, 0xEC] = .ok (.jge 0xEC, []) ∧
  decode [0xDF, 0b00000111] = .ok (.esc 56 (.mem (.noDisp 7)), []) ∧
  decode [0x27] = .ok (.daa, []) ∧
  decode [0x26, 0x90] = .ok (.prefixES, [0x90])

/-- Decoding the encoding of a well-formed instruction gives it back, with every operand at every value, whatever follows. -/
def Obligations.DecodeOfEncode : Prop :=
  ∀ (i : Instr) (rest : List Byte), i.wellFormed = true → decode (encode i ++ rest) = .ok (i, rest)

/-- What decodes is well-formed, and the bytes read are its encoding: each byte string has one meaning, and each
instruction one encoding. -/
def Obligations.EncodeOfDecode : Prop :=
  ∀ (bs : List Byte) (i : Instr) (rest : List Byte), decode bs = .ok (i, rest) →
    i.wellFormed = true ∧ bs = encode i ++ rest

/-- R28, R30, R35, R39, R76: the register tables, the byte halves of the word registers, the segment codes and the effective-address forms. -/
def Obligations.RegisterAndFormTables : Prop :=
  ([0, 1, 2, 3, 4, 5, 6, 7].map (regName .byte) = [.AL, .CL, .DL, .BL, .AH, .CH, .DH, .BH]) ∧
  ([0, 1, 2, 3, 4, 5, 6, 7].map (regName .word) = [.AX, .CX, .DX, .BX, .SP, .BP, .SI, .DI]) ∧
  ([0, 1, 2, 3].map segOfCode = [.ES, .CS, .SS, .DS]) ∧
  ([0, 1, 2, 3, 4, 5, 6, 7].map eaForm = [.BX_SI, .BX_DI, .BP_SI, .BP_DI, .SI, .DI, .BP, .BX]) ∧
  ([.BX_SI, .BX_DI, .BP_SI, .BP_DI, .SI, .DI, .BP, .BX, .DIRECT].map (fun f => (EAForm.base f, EAForm.index f)) =
    [(some .BX, some .SI), (some .BX, some .DI), (some .BP, some .SI), (some .BP, some .DI), (none, some .SI),
     (none, some .DI), (some .BP, none), (some .BX, none), (none, none)]) ∧
  (∀ (r : Registers8086) (k : BitVec 2), ∃ hi lo : Byte,
    r.read (reg8 (0#1 ++ k)) = .byte lo ∧ r.read (reg8 (1#1 ++ k)) = .byte hi ∧
    r.read (reg16 (0#1 ++ k)) = .word (hi ++ lo))

/-- R74 to R79, R86: the r/m operand of each form, with the override in force in every memory operand. -/
def Obligations.RmOperandForms : Prop :=
  ∀ (w : OpWidth) (seg : Option SegmentType) (m : Byte) (rest : List Byte),
    (modField m = 3 → readRM m (fun e _ => done (.not w e)) rest = .ok (.not w (.reg (rmField m)), rest) ∧
      rmOperand w seg (.reg (rmField m)) = .register (regName w (rmField m))) ∧
    (modField m = 0 → rmField m = 6 → ∀ lo hi,
      readRM m (fun e _ => done (.not w e)) (lo :: hi :: rest) =
        .ok (.not w (.mem (.direct (hi ++ lo))), rest) ∧
      rmOperand w seg (.mem (.direct (hi ++ lo))) = .memory ⟨.DIRECT, .disp16 (hi ++ lo), seg⟩) ∧
    (modField m = 0 → rmField m ≠ 6 →
      readRM m (fun e _ => done (.not w e)) rest = .ok (.not w (.mem (.noDisp (rmField m))), rest) ∧
      rmOperand w seg (.mem (.noDisp (rmField m))) = .memory ⟨eaForm (rmField m), .noDisp, seg⟩) ∧
    (modField m = 1 → ∀ b,
      readRM m (fun e _ => done (.not w e)) (b :: rest) =
        .ok (.not w (.mem (.disp8 (rmField m) b)), rest) ∧
      rmOperand w seg (.mem (.disp8 (rmField m) b)) = .memory ⟨eaForm (rmField m), .disp8 (b.signExtend 16), seg⟩) ∧
    (modField m = 2 → ∀ lo hi,
      readRM m (fun e _ => done (.not w e)) (lo :: hi :: rest) =
        .ok (.not w (.mem (.disp16 (rmField m) (hi ++ lo))), rest) ∧
      rmOperand w seg (.mem (.disp16 (rmField m) (hi ++ lo))) =
        .memory ⟨eaForm (rmField m), .disp16 (hi ++ lo), seg⟩)

/-! ### Steps and errors -/

/-- A step runs the instruction whose bytes stand at the cursor, from the state the call is in: a new call at a boundary,
the call in progress after a prefix (R87, R305). That at a boundary the unwritten latches go back to the values of
`clearLatches`, where R351 allows any, and that the result port is emptied, are the model's choices (log 5, log 21). -/
def Obligations.StepRunsDecodedInstruction : Prop :=
  ∀ (s : State) (i : Instr), s.running → i.wellFormed = true → s.holds i →
    step s = exec i s.ready ∧
    (s.atBoundary = true →
      s.ready = { s.clearLatches with p0 := s.pos, phase := .start, trail := [.start], result := none }) ∧
    (s.atBoundary = false → s.ready = s)

/-- A step takes the error of a unit that does not decode (R23, R87, R324, R326, R327): the call ends with `Err e` after
one of the phase sequences of a failing call, and nothing of it is kept; `GetAssembly` returns `Err e` and no text, and the
next step of the failed call is its fault. The cursor, the cleared latches, the phase of a missing byte and the fault are
the model's choices (log 18, log 5, log 30, log 3). -/
def Obligations.StepTakesDecodeError : Prop :=
  ∀ (s : State) (e : DecodeError), s.running → decode s.fetch = .error e →
    let x := errorOf s.ready.p0 s.pos e
    ∃ t, step s = .next t ∧ t.phase = .failed x ∧ t.result = some (.err x) ∧ t.pos = x.cursor ∧ t.seg = none ∧
      t.latchesUnwritten ∧ (∃ w, t.trail = s.ready.trail ++ w ++ [.failed x] ∧ .start :: w ∈ failedTrails) ∧
      (s.entryPoint = .getAssembly → t.text = some (.err x) ∧ t.lines = []) ∧
      (s.entryPoint = .decodeNext → t.text = s.text ∧ t.lines = s.lines) ∧ step t = .fault (Fault.ofError x)

/-- R107: exactly the 23 listed opcode bytes give `UnknownOpcode` with no subop, whatever follows, raised in phase
OpcodeRead (R87). What `takeError` leaves in cursor and latches is the model's choice (log 18, log 5). -/
def Obligations.UnknownOpcodeBytes : Prop :=
  ∀ (s : State) (op : Byte) (rest : List Byte), s.running → s.fetch = op :: rest →
    (step s = .next (takeError ⟨.unknownOpcode, s.ready.p0, s.pos, some op, none⟩ (s.ready.through [.opcodeRead])) ↔
      op ∈ unknownOpcodeBytes)

/-- R108: exactly the listed group slots give `UnknownOpcode` with subop `reg`, whatever follows the ModRM byte, raised in
phase ModRMRead (R87). What `takeError` leaves in cursor and latches is the model's choice (log 18, log 5). -/
def Obligations.UnknownGroupSlots : Prop :=
  ∀ (s : State) (op m : Byte) (rest : List Byte), s.running → s.fetch = op :: m :: rest →
    (step s = .next (takeError ⟨.unknownOpcode, s.ready.p0, s.pos, some op, some (regField m)⟩
        (s.ready.through [.opcodeRead, .modrmRead])) ↔
      unknownGroupSlot op (regField m))

/-- R109, R112, R323: exactly the listed second bytes give `InvalidOperandEncoding`, whatever follows them, raised in phase
ModRMRead (R87), or for the byte of D4 and D5 in ImmediateRead, which is the model's reading of R87 (log 30). What
`takeError` leaves in cursor and latches is the model's choice (log 18, log 5). -/
def Obligations.InvalidSecondBytes : Prop :=
  ∀ (s : State) (op m : Byte) (rest : List Byte), s.running → s.fetch = op :: m :: rest →
    (step s = .next (takeError ⟨.invalidOperandEncoding, s.ready.p0, s.pos + 1, some m, none⟩
        (s.ready.through [.opcodeRead, if op = 0xD4 ∨ op = 0xD5 then .immediateRead else .modrmRead])) ↔
      invalidSecondByte op m)

/-- R322, R54: where the buffer ends inside an instruction's bytes, the step takes `UnexpectedEndOfStream` at the first byte
of the field that is cut (`cutAt`): the end of the buffer, or one byte before it where a word read found one byte. The phase
it is raised in is R87's, for a missing displacement or immediate as log 30 reads it; cursor and latches are as in log 18
and log 5. -/
def Obligations.TruncatedStreamTakesEndOfStream : Prop :=
  ∀ (s : State) (i : Instr) (n : Nat), s.running → i.wellFormed = true → n < (encode i).length →
    s.fetch = (encode i).take n →
    let q := s.pos + (cutAt s.fetch).2
    step s = .next (takeError ⟨.unexpectedEndOfStream, s.ready.p0, q, none, none⟩ (s.ready.through (cutAt s.fetch).1)) ∧
      (q = s.buf.size ∨ q + 1 = s.buf.size)

/-- Where a meaning finds no room for its instruction's bytes, it takes `UnexpectedEndOfStream` (R54, R322, R325) after one
of the phase sequences of a failing call (R23; the phase of a missing byte is the model's reading, log 30). The latch values
in the state after it, where R351 allows any, are the model's choice (log 5), and so is its cursor (log 18). -/
def Obligations.ExecWithoutRoomTakesEndOfStream : Prop :=
  ∀ (s : State) (i : Instr), s.pos ≤ s.buf.size → ¬ s.hasRoom i →
    ∃ q w, s.pos ≤ q ∧ q ≤ s.buf.size ∧ .start :: w ∈ failedTrails ∧
      exec i s = .next (takeError ⟨.unexpectedEndOfStream, s.p0, q, none, none⟩ (s.through w))

/-- R328, R306: a call is refused exactly when the buffer is longer than 2^32 - 1 bytes or the start offset lies past its
end; at the end itself `DecodeNext` takes `UnexpectedEndOfStream` with start and offset N. `GetAssembly` calls at an offset
other than 0 are among them by the model's choice (log 29); what `takeError` leaves is as in log 18 and log 5. -/
def Obligations.RefusedExactlyOutsideDomain : Prop :=
  ∀ (entryPoint : EntryPoint) (B : Memory) (p0 : Nat) (label : String) (mode : OutputValueMode),
    ((∃ r, step (State.ofCall entryPoint B p0 label mode) = .refused r) ↔ 2 ^ 32 - 1 < B.size ∨ B.size < p0) ∧
    (B.size ≤ 2 ^ 32 - 1 →
      step (State.ofCall .decodeNext B B.size label mode) =
        .next (takeError ⟨.unexpectedEndOfStream, B.size, B.size, none, none⟩
          (State.ofCall .decodeNext B B.size label mode)))

/-- R305: `GetAssembly` returns its lines joined with one line feed when the stream is exhausted; after a return nothing
changes (the last clause is the model's choice, log 4). -/
def Obligations.GetAssemblyReturnsJoinedLines : Prop :=
  ∀ s : State, s.buf.admitted = true → s.entryPoint = .getAssembly → s.text = none → s.atBoundary = true →
    s.pos = s.buf.size →
    step s = .next { s with text := some (.ok (joinWith "\n" s.lines)) } ∧
    step { s with text := some (.ok (joinWith "\n" s.lines)) } =
      .next { s with text := some (.ok (joinWith "\n" s.lines)) }

/-- R87, R306: on every buffer and start offset of the domain, the machine's steps end with the result of the spec's own
`Decode(B, p0)`. -/
def Obligations.MachineRefinesDecodeNext : Prop :=
  ∀ (B : Memory) (p0 : Nat) (label : String) (mode : OutputValueMode), B.admitted = true → p0 ≤ B.size →
    ∃ k t, Sys2Proof.core.run k (State.ofCall .decodeNext B p0 label mode) = .next t ∧
      t.result = some (decodeNext B p0 label)

/-- R305: on every buffer of the domain, the machine's steps end with the result of the spec's own `GetAssembly`. -/
def Obligations.MachineRefinesGetAssembly : Prop :=
  ∀ (B : Memory) (label : String) (mode : OutputValueMode), B.admitted = true →
    ∃ k t, Sys2Proof.core.run k (State.ofCall .getAssembly B 0 label mode) = .next t ∧
      t.text = some (getAssembly B label mode)

/-- R110, R359 (first part): bytes outside the decoded instruction cannot change how it decodes. -/
def Obligations.BytesOutsideInstructionDoNotMatter : Prop :=
  ∀ (B B' : Memory) (p0 : Nat) (x : Instruction), decodeAt B p0 = .ok x →
    (∀ a, p0 ≤ a → a < p0 + x.length → B'.read a = B.read a) → decodeAt B' p0 = .ok x

/-- R359 (second part), with the bytes read taken up to the model's `Error.cursor` (log 27): the bytes after the one that
shows an error cannot change it, but for the end of the stream. -/
def Obligations.BytesAfterErrorDoNotMatter : Prop :=
  ∀ (B B' : Memory) (p0 : Nat) (e : Error), decodeAt B p0 = .error e → e.kind ≠ .unexpectedEndOfStream →
    (∀ a, p0 ≤ a → a < e.cursor → B'.read a = B.read a) → decodeAt B' p0 = .error e

/-! ### What a decode leaves unchanged, and what its latches hold -/

/-- The frame of every meaning (R16, R24, R57): inputs, instruction start and every byte of the buffer are unchanged, and
no text is returned by a success. -/
def Obligations.ExecFrame : Prop :=
  ∀ (i : Instr) (s t : State), exec i s = .next t →
    t.buf = s.buf ∧ (∀ a, t.buf.read a = s.buf.read a) ∧ t.label = s.label ∧ t.mode = s.mode ∧
      t.entryPoint = s.entryPoint ∧ t.p0 = s.p0 ∧
      ((∀ e, t.phase ≠ .failed e) → t.text = s.text ∧ s.pos + (encode i).length = t.pos)

/-- The frame of a completed decode (R23, R24, R87): `seg` is unchanged, the phases entered are one of the spec's
sequences, a latch is unchanged unless its phase was entered (a memory operand without a displacement field also clears
`disp`; only a far pointer writes `imm2`), and only `GetAssembly` adds a line. -/
def Obligations.CompletedDecodeFrame : Prop :=
  ∀ (i : Instr) (s t : State), exec i s = .next t → t.phase = .complete →
    t.seg = s.seg ∧
    (∃ w, t.trail = s.trail ++ w ∧ (.start :: w) ∈ completedTrails ∧
      (.modrmRead ∉ w → t.mod = s.mod ∧ t.reg = s.reg ∧ t.rm = s.rm ∧ t.modrmOffset = s.modrmOffset ∧ t.disp = s.disp) ∧
      (.displacementRead ∉ w → t.disp = s.disp ∨ t.disp = .noDisp) ∧
      (.immediateRead ∉ w → t.imm1 = s.imm1 ∧ t.imm2 = s.imm2)) ∧
    ((∀ o g, i ≠ .callf (.far o g) ∧ i ≠ .jmpf (.far o g)) → t.imm2 = s.imm2) ∧
    (s.entryPoint = .decodeNext → t.lines = s.lines) ∧
    (s.entryPoint = .getAssembly →
      ∃ x, t.result = some (.ok x) ∧ t.lines = s.lines ++ [render s.mode x])

/-- The latches hold the fields of the bytes read (R24, R55, R71, R72, R75, R77, R80, R84, R88): the opcode at its offset
with its table entry; the three fields of the ModRM byte at its offset, right after the opcode; the displacement after it, a
byte sign-extended, a word low byte first; the immediate after that, and for a far pointer offset and segment words. Every
immediate operand read from the stream is in a latch. That the immediate's latch holds the raw field, also an address word
and the 0x0A byte, which the result has no immediate for, and for 83 the byte before sign extension, and that a memory
operand without displacement leaves NoDisp, is the model's reading (log 13). -/
def Obligations.LatchesHoldBytesRead : Prop :=
  ∀ s t : State, s.running → step s = .next t → t.phase = .complete →
    let w := t.trail.drop s.ready.trail.length
    let d := if .displacementRead ∈ w then (if t.mod = 1 then 1 else 2) else 0
    let q := if .modrmRead ∈ w then t.modrmOffset + 1 else t.opOffset + 1
    t.opOffset = s.pos ∧ t.buf.read t.opOffset = some t.op ∧ t.entry = primary t.op ∧
    (.modrmRead ∈ w → t.modrmOffset = t.opOffset + 1 ∧
      ∃ m, t.buf.read t.modrmOffset = some m ∧ t.mod = modField m ∧ t.reg = regField m ∧ t.rm = rmField m) ∧
    (.displacementRead ∈ w → t.mod = 1 → ∃ b, t.buf.read q = some b ∧ t.disp = .disp8 (b.signExtend 16)) ∧
    (.displacementRead ∈ w → t.mod ≠ 1 →
      ∃ lo hi, t.buf.read q = some lo ∧ t.buf.read (q + 1) = some hi ∧ t.disp = .disp16 (hi ++ lo)) ∧
    (.modrmRead ∈ w → .displacementRead ∉ w → t.mod ≠ 3 → t.disp = .noDisp) ∧
    (.immediateRead ∈ w → t.op ∉ [0x9A#8, 0xEA#8] → t.imm1.readAt t.buf (q + d) ∧ t.pos = q + d + t.imm1.size) ∧
    (t.op ∈ [0x9A#8, 0xEA#8] → ∃ o g, t.imm1 = .word o .farOffset ∧ t.imm2 = .word g .farSegment ∧
      t.imm1.readAt t.buf q ∧ t.imm2.readAt t.buf (q + 2) ∧ t.pos = q + 4) ∧
    (∀ x i, t.result = some (.ok x) → .immediate i ∈ x.operands → i.flag ∉ [.implicitOne, .escapeCode] →
      .immediateRead ∈ w ∧ (i = t.imm1 ∨ (t.op ∈ [0x9A#8, 0xEA#8] ∧ i = t.imm2) ∨
        ∃ b, t.op = 0x83 ∧ t.imm1 = .byte b .none ∧ i = .word (b.signExtend 16) .none))

/-- R105, R106, R7: a completed call's length is every byte from the instruction start to the cursor, at least 1 and
within u32, and its opcode byte is the byte after the prefixes. -/
def Obligations.LengthCountsEveryByte : Prop :=
  ∀ (s : State) (i : Instr), s.running → i.wellFormed = true → s.holds i →
    i ∉ [Instr.prefixES, .prefixCS, .prefixSS, .prefixDS] → s.ready.p0 ≤ s.pos →
    ∃ t x, step s = .next t ∧ t.result = some (.ok x) ∧
      x.length = (s.pos - s.ready.p0) + (encode i).length ∧ x.length = t.pos - t.p0 ∧ 1 ≤ x.length ∧
      x.length < 2 ^ 32 ∧ s.buf.read s.pos = some x.opcodeByte

/-! ### What each instruction completes with -/

/-- R85: a segment-override prefix byte sets `seg`, leaves the phase at Start and changes nothing else but the cursor. -/
def Obligations.PrefixBytesSetSegment : Prop :=
  ∀ s : State, s.pos + 1 ≤ s.buf.size →
    exec .prefixES s = .next { s with pos := s.pos + 1, seg := some .ES, phase := .start } ∧
    exec .prefixCS s = .next { s with pos := s.pos + 1, seg := some .CS, phase := .start } ∧
    exec .prefixSS s = .next { s with pos := s.pos + 1, seg := some .SS, phase := .start } ∧
    exec .prefixDS s = .next { s with pos := s.pos + 1, seg := some .DS, phase := .start }

/-- R11, R85: any number of prefixes may precede an opcode, and the last one wins. -/
def Obligations.LastPrefixWins : Prop :=
  ∀ (B : Memory) (p0 : Nat) (label : String) (mode : OutputValueMode) (segs : List SegmentType),
    B.admitted = true → p0 + segs.length ≤ B.size →
    (∀ k, k < segs.length → B.read (p0 + k) = (segs[k]?).map segPrefixByte) →
    Sys2Proof.core.run segs.length (State.ofCall .decodeNext B p0 label mode) =
      .next { State.ofCall .decodeNext B p0 label mode with pos := p0 + segs.length, seg := segs.getLast? }

/-- R103 and the rule of each instruction: no operands and one byte; width None, and for the string instructions the
width of the w bit. -/
def Obligations.BareInstructionsComplete : Prop :=
  (∀ row ∈ bareTable, ∀ s : State, s.pos + 1 ≤ s.buf.size →
    completesWith s 1 row.2.1 row.2.2 .none [] (exec row.1 s)) ∧
  (∀ row ∈ stringTable, ∀ s : State, s.pos + 1 ≤ s.buf.size →
    completesWith s 1 row.2.1 row.2.2.1 row.2.2.2 [] (exec row.1 s))

/-- R150, R151, R155, R156, R159, R188, R190, R191 with R90 to R92 and R81: the six encodings of each ALU instruction. -/
def Obligations.AluFormsComplete : Prop :=
  ∀ row ∈ aluTable, ∀ s : State,
    (∀ w e g, (row.1 (.eg w e g)).wellFormed = true → s.hasRoom (row.1 (.eg w e g)) →
      completesWith s (rmLength e) (row.2.1 + w.bit) row.2.2 (dataWidth w)
        [rmOperand w s.seg e, .register (regName w g)] (exec (row.1 (.eg w e g)) s)) ∧
    (∀ w g e, (row.1 (.ge w g e)).wellFormed = true → s.hasRoom (row.1 (.ge w g e)) →
      completesWith s (rmLength e) (row.2.1 + 2 + w.bit) row.2.2 (dataWidth w)
        [.register (regName w g), rmOperand w s.seg e] (exec (row.1 (.ge w g e)) s)) ∧
    (∀ b, s.hasRoom (row.1 (.accI (.byte b))) →
      completesWith s 2 (row.2.1 + 4) row.2.2 .byte [.register .AL, .immediate (.byte b .none)]
        (exec (row.1 (.accI (.byte b))) s)) ∧
    (∀ v, s.hasRoom (row.1 (.accI (.word v))) →
      completesWith s 3 (row.2.1 + 5) row.2.2 .word [.register .AX, .immediate (.word v .none)]
        (exec (row.1 (.accI (.word v))) s)) ∧
    (∀ e b, (row.1 (.eI e (.byte b))).wellFormed = true → s.hasRoom (row.1 (.eI e (.byte b))) →
      completesWith s (rmLength e + 1) 0x80 row.2.2 .byte [rmOperand .byte s.seg e, .immediate (.byte b .none)]
        (exec (row.1 (.eI e (.byte b))) s)) ∧
    (∀ e v, (row.1 (.eI e (.word v))).wellFormed = true → s.hasRoom (row.1 (.eI e (.word v))) →
      completesWith s (rmLength e + 2) 0x81 row.2.2 .word [rmOperand .word s.seg e, .immediate (.word v .none)]
        (exec (row.1 (.eI e (.word v))) s)) ∧
    (∀ e b, (row.1 (.eI82 e b)).wellFormed = true → s.hasRoom (row.1 (.eI82 e b)) →
      completesWith s (rmLength e + 1) 0x82 row.2.2 .byte [rmOperand .byte s.seg e, .immediate (.byte b .none)]
        (exec (row.1 (.eI82 e b)) s)) ∧
    (∀ e b, (row.1 (.eIs e b)).wellFormed = true → s.hasRoom (row.1 (.eIs e b)) →
      completesWith s (rmLength e + 1) 0x83 row.2.2 .word
        [rmOperand .word s.seg e, .immediate (.word (b.signExtend 16) .none)] (exec (row.1 (.eIs e b)) s))

/-- R152, R157: INC and DEC, of a word register in the opcode or of an r/m operand. -/
def Obligations.IncDecFormsComplete : Prop :=
  ∀ s : State,
    (∀ r : BitVec 3, s.pos + 1 ≤ s.buf.size →
      completesWith s 1 (0b01000#5 ++ r) .INC .word [.register (reg16 r)] (exec (.inc (.reg16 r)) s) ∧
      completesWith s 1 (0b01001#5 ++ r) .DEC .word [.register (reg16 r)] (exec (.dec (.reg16 r)) s)) ∧
    (∀ w e, e.wellFormed = true → s.pos + rmLength e ≤ s.buf.size →
      completesWith s (rmLength e) (0xFE + w.bit) .INC (dataWidth w) [rmOperand w s.seg e] (exec (.inc (.rm w e)) s) ∧
      completesWith s (rmLength e) (0xFE + w.bit) .DEC (dataWidth w) [rmOperand w s.seg e] (exec (.dec (.rm w e)) s))

/-- R158, R162, R163, R165, R166, R180, R181 to R187 with R98: NEG, MUL, IMUL, DIV, IDIV, NOT of an r/m operand (F6, F7),
and shifts and rotates of one by the implicit constant 1 (D0, D1), for which no byte is read, or by CL (D2, D3). -/
def Obligations.UnaryAndShiftGroupsComplete : Prop :=
  ∀ (s : State) (w : OpWidth) (e : RM), e.wellFormed = true → s.pos + rmLength e ≤ s.buf.size →
    (∀ row ∈ unaryTable,
      completesWith s (rmLength e) (0xF6 + w.bit) row.2 (dataWidth w) [rmOperand w s.seg e] (exec (row.1 w e) s)) ∧
    (∀ row ∈ shiftTable,
      completesWith s (rmLength e) (0xD0 + w.bit) row.2 (dataWidth w)
        [rmOperand w s.seg e, .immediate (.byte 0x01 .implicitOne)] (exec (row.1 .one w e) s) ∧
      completesWith s (rmLength e) (0xD2 + w.bit) row.2 (dataWidth w) [rmOperand w s.seg e, .register .CL]
        (exec (row.1 .cl w e) s))

/-- R189: TEST, of an r/m operand and a register, of the accumulator or of an r/m operand and an immediate. -/
def Obligations.TestFormsComplete : Prop :=
  ∀ s : State,
    (∀ w e g, e.wellFormed = true → s.pos + rmLength e ≤ s.buf.size →
      completesWith s (rmLength e) (0x84 + w.bit) .TEST (dataWidth w) [rmOperand w s.seg e, .register (regName w g)]
        (exec (.test (.eg w e g)) s)) ∧
    (∀ d, s.pos + (1 + dataLength d) ≤ s.buf.size →
      completesWith s (1 + dataLength d) (0xA8 + d.width.bit) .TEST (dataWidth d.width)
        [.register (regName d.width 0), .immediate (dataImm d)] (exec (.test (.accI d)) s)) ∧
    (∀ e d, e.wellFormed = true → s.pos + (rmLength e + dataLength d) ≤ s.buf.size →
      completesWith s (rmLength e + dataLength d) (0xF6 + d.width.bit) .TEST (dataWidth d.width)
        [rmOperand d.width s.seg e, .immediate (dataImm d)] (exec (.test (.eI e d)) s))

/-- R120 to R124: the eight forms of MOV; no form loads CS (R109). -/
def Obligations.MovFormsComplete : Prop :=
  ∀ s : State,
    (∀ w e g, e.wellFormed = true → s.pos + rmLength e ≤ s.buf.size →
      completesWith s (rmLength e) (0x88 + w.bit) .MOV (dataWidth w) [rmOperand w s.seg e, .register (regName w g)]
        (exec (.mov (.eg w e g)) s) ∧
      completesWith s (rmLength e) (0x8A + w.bit) .MOV (dataWidth w) [.register (regName w g), rmOperand w s.seg e]
        (exec (.mov (.ge w g e)) s)) ∧
    (∀ e d, e.wellFormed = true → s.pos + (rmLength e + dataLength d) ≤ s.buf.size →
      completesWith s (rmLength e + dataLength d) (0xC6 + d.width.bit) .MOV (dataWidth d.width)
        [rmOperand d.width s.seg e, .immediate (dataImm d)] (exec (.mov (.eI e d)) s)) ∧
    (∀ r b, s.pos + 2 ≤ s.buf.size →
      completesWith s 2 (0b10110#5 ++ r) .MOV .byte [.register (reg8 r), .immediate (.byte b .none)]
        (exec (.mov (.regI r (.byte b))) s)) ∧
    (∀ r v, s.pos + 3 ≤ s.buf.size →
      completesWith s 3 (0b10111#5 ++ r) .MOV .word [.register (reg16 r), .immediate (.word v .none)]
        (exec (.mov (.regI r (.word v))) s)) ∧
    (∀ w a, s.pos + 3 ≤ s.buf.size →
      completesWith s 3 (0xA0 + w.bit) .MOV (dataWidth w)
        [.register (regName w 0), .memory ⟨.DIRECT, .disp16 a, s.seg⟩] (exec (.mov (.accMoffs w a)) s) ∧
      completesWith s 3 (0xA2 + w.bit) .MOV (dataWidth w)
        [.memory ⟨.DIRECT, .disp16 a, s.seg⟩, .register (regName w 0)] (exec (.mov (.moffsAcc w a)) s)) ∧
    (∀ e r, e.wellFormed = true → s.pos + rmLength e ≤ s.buf.size →
      completesWith s (rmLength e) 0x8C .MOV .word [rmOperand .word s.seg e, .register (segName r)]
        (exec (.mov (.ewS e r)) s) ∧
      (r ≠ .CS → completesWith s (rmLength e) 0x8E .MOV .word [.register (segName r), rmOperand .word s.seg e]
        (exec (.mov (.sEw r e)) s)))

/-- R125 to R127: PUSH and POP of a word register, a segment register or an r/m operand (no POP CS), and XCHG. -/
def Obligations.StackAndExchangeFormsComplete : Prop :=
  ∀ s : State,
    (∀ r : BitVec 3, s.pos + 1 ≤ s.buf.size →
      completesWith s 1 (0b01010#5 ++ r) .PUSH .word [.register (reg16 r)] (exec (.push (.reg16 r)) s) ∧
      completesWith s 1 (0b01011#5 ++ r) .POP .word [.register (reg16 r)] (exec (.pop (.reg16 r)) s) ∧
      (r ≠ 0 → completesWith s 1 (0b10010#5 ++ r) .XCHG .word [.register .AX, .register (reg16 r)]
        (exec (.xchg (.ax r)) s))) ∧
    (∀ r : SegmentType, s.pos + 1 ≤ s.buf.size →
      completesWith s 1 (0b000#3 ++ r.code ++ 0b110#3) .PUSH .word [.register (segName r)] (exec (.push (.sreg r)) s) ∧
      (r ≠ .CS → completesWith s 1 (0b000#3 ++ r.code ++ 0b111#3) .POP .word [.register (segName r)]
        (exec (.pop (.sreg r)) s))) ∧
    (∀ e, e.wellFormed = true → s.pos + rmLength e ≤ s.buf.size →
      completesWith s (rmLength e) 0xFF .PUSH .word [rmOperand .word s.seg e] (exec (.push (.rm e)) s) ∧
      completesWith s (rmLength e) 0x8F .POP .word [rmOperand .word s.seg e] (exec (.pop (.rm e)) s)) ∧
    (∀ w e g, e.wellFormed = true → s.pos + rmLength e ≤ s.buf.size →
      completesWith s (rmLength e) (0x86 + w.bit) .XCHG (dataWidth w) [rmOperand w s.seg e, .register (regName w g)]
        (exec (.xchg (.eg w e g)) s))

/-- R102, R128, R129: IN and OUT, by a port number or by DX. -/
def Obligations.PortFormsComplete : Prop :=
  ∀ (s : State) (w : OpWidth),
    (∀ b, s.pos + 2 ≤ s.buf.size →
      completesWith s 2 (0xE4 + w.bit) .IN (dataWidth w) [.register (regName w 0), .immediate (.byte b .portNumber)]
        (exec (.inPort (.imm w b)) s) ∧
      completesWith s 2 (0xE6 + w.bit) .OUT (dataWidth w) [.immediate (.byte b .portNumber), .register (regName w 0)]
        (exec (.outPort (.imm w b)) s)) ∧
    (s.pos + 1 ≤ s.buf.size →
      completesWith s 1 (0xEC + w.bit) .IN (dataWidth w) [.register (regName w 0), .register .DX]
        (exec (.inPort (.dx w)) s) ∧
      completesWith s 1 (0xEE + w.bit) .OUT (dataWidth w) [.register .DX, .register (regName w 0)]
        (exec (.outPort (.dx w)) s))

/-- R100, R131 to R133: LEA, LDS and LES of a word register and a memory operand. -/
def Obligations.LoadAddressFormsComplete : Prop :=
  ∀ row ∈ loadAddressTable, ∀ (s : State) (g : BitVec 3) (m : Mem), m.wellFormed = true →
    s.pos + rmLength (.mem m) ≤ s.buf.size →
    completesWith s (rmLength (.mem m)) row.2.1 row.2.2 .word [.register (reg16 g), rmOperand .word s.seg (.mem m)]
      (exec (row.1 g m) s)

/-- R95, R221 to R240: the conditional jumps and loops keep the raw displacement byte. -/
def Obligations.ShortJumpsComplete : Prop :=
  ∀ row ∈ shortJumpTable, ∀ (s : State) (d : Byte), s.pos + 2 ≤ s.buf.size →
    completesWith s 2 row.2.1 row.2.2 .none [.immediate (.byte d .relativeJumpDisplacement)] (exec (row.1 d) s)

/-- R215, R217: CALL and JMP, relative or of an r/m operand. -/
def Obligations.NearTransfersComplete : Prop :=
  ∀ s : State,
    (∀ d, s.pos + 3 ≤ s.buf.size →
      completesWith s 3 0xE8 .CALL .none [.immediate (.word d .relativeJumpDisplacement)] (exec (.call (.rel16 d)) s) ∧
      completesWith s 3 0xE9 .JMP .none [.immediate (.word d .relativeJumpDisplacement)] (exec (.jmp (.rel16 d)) s)) ∧
    (∀ d, s.pos + 2 ≤ s.buf.size →
      completesWith s 2 0xEB .JMP .none [.immediate (.byte d .relativeJumpDisplacement)] (exec (.jmp (.rel8 d)) s)) ∧
    (∀ e, e.wellFormed = true → s.pos + rmLength e ≤ s.buf.size →
      completesWith s (rmLength e) 0xFF .CALL .word [rmOperand .word s.seg e] (exec (.call (.rm e)) s) ∧
      completesWith s (rmLength e) 0xFF .JMP .word [rmOperand .word s.seg e] (exec (.jmp (.rm e)) s))

/-- R84, R96, R216, R218 to R220, R115: far calls and jumps, segment operand first, and the returns. -/
def Obligations.FarTransfersAndReturnsComplete : Prop :=
  ∀ s : State,
    (∀ o g, s.pos + 5 ≤ s.buf.size →
      completesWith s 5 0x9A .CALLF .none [.immediate (.word g .farSegment), .immediate (.word o .farOffset)]
        (exec (.callf (.far o g)) s) ∧
      completesWith s 5 0xEA .JMPF .none [.immediate (.word g .farSegment), .immediate (.word o .farOffset)]
        (exec (.jmpf (.far o g)) s)) ∧
    (∀ m, m.wellFormed = true → s.pos + rmLength (.mem m) ≤ s.buf.size →
      completesWith s (rmLength (.mem m)) 0xFF .CALLF .word [rmOperand .word s.seg (.mem m)] (exec (.callf (.mem m)) s) ∧
      completesWith s (rmLength (.mem m)) 0xFF .JMPF .word [rmOperand .word s.seg (.mem m)] (exec (.jmpf (.mem m)) s)) ∧
    (s.pos + 1 ≤ s.buf.size →
      completesWith s 1 0xC3 .RET .none [] (exec (.ret .plain) s) ∧
      completesWith s 1 0xCB .RETF .none [] (exec (.retf .plain) s)) ∧
    (∀ n, s.pos + 3 ≤ s.buf.size →
      completesWith s 3 0xC2 .RET .none [.immediate (.word n .stackAdjust)] (exec (.ret (.adjust n)) s) ∧
      completesWith s 3 0xCA .RETF .none [.immediate (.word n .stackAdjust)] (exec (.retf (.adjust n)) s))

/-- R111, R112, R115, R164, R167, R241, R259: INT, AAM, AAD (whose second byte is 0x0A and no operand), and ESC with its
6-bit code. -/
def Obligations.InterruptAdjustEscapeComplete : Prop :=
  ∀ s : State,
    (s.pos + 2 ≤ s.buf.size →
      (∀ n, completesWith s 2 0xCD .INT .none [.immediate (.byte n .interruptType)] (exec (.int n) s)) ∧
      completesWith s 2 0xD4 .AAM .none [] (exec .aam s) ∧ completesWith s 2 0xD5 .AAD .none [] (exec .aad s)) ∧
    (∀ (hi lo : BitVec 3) (e : RM), e.wellFormed = true → s.pos + rmLength e ≤ s.buf.size →
      completesWith s (rmLength e) (0b11011#5 ++ hi) .ESC .word
        [.immediate (.byte (0#2 ++ hi ++ lo) .escapeCode), rmOperand .word s.seg e] (exec (.esc (hi ++ lo) e) s))

/-! ### The flag unit -/

/-- R284: the worked vectors, whole. -/
def Obligations.FlagVectors : Prop :=
  (∀ v ∈ [(0x7F#8, 0x01#8, false, 0x80#8, [false, false, true, false, true, true]),
      (0xFF, 0x01, false, 0x00, [true, true, true, true, false, false]),
      (0x08, 0x08, false, 0x10, [false, false, true, false, false, false]),
      (0x12, 0x34, false, 0x46, [false, false, false, false, false, false]),
      (0xFF, 0xFF, true, 0xFF, [true, true, true, false, true, false])],
    (addClass .byte v.1 v.2.1 v.2.2.1).r = v.2.2.2.1 ∧
      (let f := (addClass .byte v.1 v.2.1 v.2.2.1).flags
       [f.cf, f.pf, f.af, f.zf, f.sf, f.of] = v.2.2.2.2.map FlagEffect.set)) ∧
  (∀ v ∈ [(0x00#8, 0x01#8, false, 0xFF#8, [true, true, true, false, true, false]),
      (0x80, 0x01, false, 0x7F, [false, false, true, false, false, true]),
      (0x05, 0x05, false, 0x00, [false, true, false, true, false, false]),
      (0x10, 0x01, false, 0x0F, [false, true, true, false, false, false]),
      (0x00, 0x00, true, 0xFF, [true, true, true, false, true, false])],
    (subClass .byte v.1 v.2.1 v.2.2.1).r = v.2.2.2.1 ∧
      (let f := (subClass .byte v.1 v.2.1 v.2.2.1).flags
       [f.cf, f.pf, f.af, f.zf, f.sf, f.of] = v.2.2.2.2.map FlagEffect.set)) ∧
  (∀ v ∈ [(0x7FFF#16, 0x0001#16, false, 0x8000#16, [false, true, true, false, true, true]),
      (0xFFFF, 0x0001, false, 0x0000, [true, true, true, true, false, false]),
      (0x00FF, 0x0001, false, 0x0100, [false, true, true, false, false, false])],
    (addClass .word v.1 v.2.1 v.2.2.1).r = v.2.2.2.1 ∧
      (let f := (addClass .word v.1 v.2.1 v.2.2.1).flags
       [f.cf, f.pf, f.af, f.zf, f.sf, f.of] = v.2.2.2.2.map FlagEffect.set)) ∧
  (∀ v ∈ [(0x8000#16, 0x0001#16, false, 0x7FFF#16, [false, true, true, false, false, true]),
      (0x0000, 0x8000, false, 0x8000, [true, true, false, false, true, true]),
      (0x0000, 0x0001, false, 0xFFFF, [true, true, true, false, true, false]),
      (0x1234, 0x1234, false, 0x0000, [false, true, false, true, false, false])],
    (subClass .word v.1 v.2.1 v.2.2.1).r = v.2.2.2.1 ∧
      (let f := (subClass .word v.1 v.2.1 v.2.2.1).flags
       [f.cf, f.pf, f.af, f.zf, f.sf, f.of] = v.2.2.2.2.map FlagEffect.set))

/-- R267, R268: parity is even parity of all eight bits, flips with any one of them, and for a word is that of the low
byte alone. -/
def Obligations.ParityOfLowByte : Prop :=
  (isParity8 0 = true ∧ isParity8 0b00001010 = true ∧ isParity8 0b00011010 = false) ∧
  (∀ (v : Byte) (k : Nat), k < 8 → isParity8 (v ^^^ BitVec.twoPow 8 k) = !isParity8 v) ∧
  (∀ hi lo : Byte, isParity16 (hi ++ lo) = isParity8 lo)

/-- R271, R272, R277, R278, and R204 to R207 for the arguments: carry and borrow are exact, result and carry together are
the whole sum, result and borrow the whole difference. The add class is ADD's without carry-in and ADC's with CF, the sub
class SUB's, CMP's, CMPS's and SCAS's without borrow-in and SBB's with CF; each has its six flags, and CMP, CMPS and SCAS
discard the result. CMPS subtracts the element at ES:DI from that at DS:SI, SCAS from AL or AX, and the arguments of the
others are their operands in order (log 31). -/
def Obligations.CarryAndBorrowAreExact : Prop :=
  ([InstructionType.CMP, .CMPSB, .CMPSW, .SCASB, .SCASW, .ADD, .ADC, .SUB, .SBB].map discardsResult =
    [true, true, true, true, true, false, false, false, false]) ∧
  (∀ x : Instruction, x.type ∈ [InstructionType.ADD, .ADC, .SUB, .SBB, .CMP, .NEG, .INC, .DEC, .AND, .TEST, .OR, .XOR] →
    classArguments x = x.operands.map ValueSource.operand) ∧
  (∀ (r : Registers8086) (mem : DataMemory) (n : Nat),
    consumerClass r mem ⟨0xA6, n, .CMPSB, .byte, []⟩ =
      some (subClass .byte (mem .byte r.ds r.si) (mem .byte r.es r.di) false) ∧
    consumerClass r mem ⟨0xA7, n, .CMPSW, .word, []⟩ =
      some (subClass .word (mem .word r.ds r.si) (mem .word r.es r.di) false) ∧
    consumerClass r mem ⟨0xAE, n, .SCASB, .byte, []⟩ =
      some (subClass .byte (r.ax.extractLsb' 0 8) (mem .byte r.es r.di) false) ∧
    consumerClass r mem ⟨0xAF, n, .SCASW, .word, []⟩ = some (subClass .word r.ax (mem .word r.es r.di) false)) ∧
  ∀ (w : OpWidth) (a b : BitVec w.bits) (c : Bool),
    classResult .ADD w a b c = some (addClass w a b false) ∧ classResult .ADC w a b c = some (addClass w a b c) ∧
    classResult .SBB w a b c = some (subClass w a b c) ∧
    (∀ t ∈ [InstructionType.SUB, .CMP, .CMPSB, .CMPSW, .SCASB, .SCASW],
      classResult t w a b c = some (subClass w a b false)) ∧
    (let r := addResult w a b c
     addClass w a b c = ⟨r, .set (carryAdd w a b c), .set (isParity8 (r.extractLsb' 0 8)), .set (auxAdd a b c),
       .set (decide (r = 0)), .set (r.getLsbD (w.bits - 1)), .set (overflowAdd w a b c)⟩) ∧
    (let r := subResult w a b c
     subClass w a b c = ⟨r, .set (carrySub w a b c), .set (isParity8 (r.extractLsb' 0 8)), .set (auxSub a b c),
       .set (decide (r = 0)), .set (r.getLsbD (w.bits - 1)), .set (overflowSub w a b c)⟩) ∧
    (carryAdd w a b c = true ↔ 2 ^ w.bits ≤ a.toNat + b.toNat + c.toNat) ∧
    (carrySub w a b c = true ↔ a.toNat < b.toNat + c.toNat) ∧
    ((addResult w a b c).toNat + (if carryAdd w a b c then 2 ^ w.bits else 0) = a.toNat + b.toNat + c.toNat) ∧
    ((subResult w a b c).toNat + b.toNat + c.toNat = a.toNat + (if carrySub w a b c then 2 ^ w.bits else 0))

/-- R273: `OverflowAdd` is the signed overflow, and its closed form. -/
def Obligations.OverflowAddClosedForm : Prop :=
  ∀ (w : OpWidth) (a b : BitVec w.bits) (c : Bool),
    let r := addResult w a b c
    (overflowAdd w a b c = true ↔ a.toInt + b.toInt + c.toNat < -(2 : Int) ^ (w.bits - 1) ∨
      (2 : Int) ^ (w.bits - 1) - 1 < a.toInt + b.toInt + c.toNat) ∧
    overflowAdd w a b c = ((a ^^^ r) &&& (b ^^^ r)).getLsbD (w.bits - 1) ∧
    (overflowAdd w a b c = false ↔ r.toInt = a.toInt + b.toInt + c.toNat)

/-- R274: `OverflowSub` is the signed overflow, and its closed form. -/
def Obligations.OverflowSubClosedForm : Prop :=
  ∀ (w : OpWidth) (a b : BitVec w.bits) (c : Bool),
    let r := subResult w a b c
    (overflowSub w a b c = true ↔ a.toInt - b.toInt - c.toNat < -(2 : Int) ^ (w.bits - 1) ∨
      (2 : Int) ^ (w.bits - 1) - 1 < a.toInt - b.toInt - c.toNat) ∧
    overflowSub w a b c = ((a ^^^ b) &&& (a ^^^ r)).getLsbD (w.bits - 1) ∧
    (overflowSub w a b c = false ↔ r.toInt = a.toInt - b.toInt - c.toNat)

/-- R275, R276: the auxiliary carry and borrow are bit 4 of `a XOR b XOR r`. -/
def Obligations.AuxiliaryCarryClosedForms : Prop :=
  ∀ (w : OpWidth) (a b : BitVec w.bits) (c : Bool),
    (auxAdd a b c = true ↔ 16 ≤ (a.extractLsb' 0 4).toNat + (b.extractLsb' 0 4).toNat + c.toNat) ∧
    auxAdd a b c = (a ^^^ b ^^^ addResult w a b c).getLsbD 4 ∧
    (auxSub a b c = true ↔ (a.extractLsb' 0 4).toNat < (b.extractLsb' 0 4).toNat + c.toNat) ∧
    auxSub a b c = (a ^^^ b ^^^ subResult w a b c).getLsbD 4

/-- R279, R280: the classes of NEG, INC and DEC. NEG is the sub class from 0, with CF set unless the operand is 0 and OF set only for `2^(n-1)`; INC and DEC
are the add and sub classes with `b = 1`, and a consumer keeps its CF. -/
def Obligations.NegIncDecFlags : Prop :=
  ([InstructionType.NEG, .INC, .DEC].map discardsResult = [false, false, false]) ∧
  ∀ (w : OpWidth) (x y : BitVec w.bits) (cf free : Bool) (flags : Word),
    classResult .NEG w x y cf = some (negClass w x) ∧ classResult .INC w x y cf = some (incClass w x) ∧
    classResult .DEC w x y cf = some (decClass w x) ∧ negClass w x = subClass w 0 x false ∧ (negClass w x).r = -x ∧
    (negClass w x).flags.cf = .set (decide (x ≠ 0)) ∧
    (negClass w x).flags.of = .set (decide (x = BitVec.twoPow w.bits (w.bits - 1))) ∧
    (incClass w x).r = x + 1 ∧ (decClass w x).r = x - 1 ∧
    (incClass w x).flags = { (addClass w x 1 false).flags with cf := .kept } ∧
    (decClass w x).flags = { (subClass w x 1 false).flags with cf := .kept } ∧
    readFlag .CF ((incClass w x).flags.apply free flags) = readFlag .CF flags ∧
    readFlag .CF ((decClass w x).flags.apply free flags) = readFlag .CF flags

/-- R281: AND, TEST, OR and XOR have the logic class, which clears CF and OF, and TEST discards the result. R281 only leaves
AF undefined: that a consumer's AF reads as an argument `free` of any value is the model's choice (log 15). -/
def Obligations.LogicClassFlags : Prop :=
  ([InstructionType.AND, .TEST, .OR, .XOR].map flagClass =
    [.logic .and, .logic .and, .logic .or, .logic .xor]) ∧ discardsResult .TEST = true ∧
  (∀ (t : InstructionType) (o : LogicOp) (w : OpWidth) (a b : BitVec w.bits) (cf : Bool), flagClass t = .logic o →
    classResult t w a b cf = some (logicClass w o a b)) ∧
  ∀ (w : OpWidth) (o : LogicOp) (a b : BitVec w.bits) (free : Bool) (flags : Word),
    let r := (logicClass w o a b).r
    let f := (logicClass w o a b).flags.apply free flags
    (∀ k, r.getLsbD k = match o with
      | .and => a.getLsbD k && b.getLsbD k
      | .or => a.getLsbD k || b.getLsbD k
      | .xor => a.getLsbD k ^^ b.getLsbD k) ∧
    readFlag .CF f = false ∧ readFlag .OF f = false ∧ readFlag .AF f = free ∧ readFlag .ZF f = decide (r = 0) ∧
    readFlag .SF f = r.getLsbD (w.bits - 1) ∧ readFlag .PF f = isParity8 (r.extractLsb' 0 8)

/-- R282: the nine flags stand at their bits of FLAGS, a class writes none of TF, IF and DF, and each of the six a class
writes reads back as written. That the bits which hold no flag keep their value is the model's choice, of which R282 says
nothing (log 32). -/
def Obligations.FlagsWordFrame : Prop :=
  ([FlagName.CF, .PF, .AF, .ZF, .SF, .TF, .IF, .DF, .OF].map FlagName.bit = [0, 2, 4, 6, 7, 8, 9, 10, 11]) ∧
  (∀ (free : Bool) (o : FlagOutcome) (flags : Word) (k : Nat), k ∉ [0, 2, 4, 6, 7, 11] →
    (o.apply free flags).getLsbD k = flags.getLsbD k) ∧
  (∀ (free : Bool) (o : FlagOutcome) (flags : Word) (b : Bool),
    ∀ p ∈ [(FlagName.CF, o.cf), (.PF, o.pf), (.AF, o.af), (.ZF, o.zf), (.SF, o.sf), (.OF, o.of)],
      p.2 = .set b → readFlag p.1 (o.apply free flags) = b)

/-- R283: no class for shifts, rotates, multiply, divide, the decimal adjusts, NOT and the flag instructions. -/
def Obligations.NoFlagClass : Prop :=
  ∀ t ∈ noFlagClassTypes, ∀ (w : OpWidth) (a b : BitVec w.bits) (cf : Bool), classResult t w a b cf = none

/-! ### What a consumer makes of operands -/

/-- R58 to R60, R59's default segments and R60's address modulo 2^20: what a memory operand names. R330: where the two words
of an interrupt vector stand, offset first, in a table of 0x400 bytes at 0 in which no two vectors share a word. -/
def Obligations.MemoryOperandAddress : Prop :=
  (∀ (wordAt : Nat → Word) (n : Byte) (v : InterruptVector),
    readVector wordAt n = ⟨wordAt (4 * n.toNat), wordAt (4 * n.toNat + 2)⟩ ∧
    ((∀ p ∈ vectorWords n v, wordAt p.1 = p.2) ↔ readVector wordAt n = v) ∧
    (∀ p ∈ vectorWords n v, p.1 + 2 ≤ vectorTableBytes) ∧
    (∀ m u, m ≠ n → ∀ p ∈ vectorWords n v, ∀ q ∈ vectorWords m u, p.1 + 2 ≤ q.1 ∨ q.1 + 2 ≤ p.1) ∧
    v.handler = (16 * v.segment.toNat + v.offset.toNat) % 2 ^ 20) ∧
  vectorTableBytes = 0x400 ∧
  ([DedicatedVector.divideError, .singleStep, .nmi, .breakpoint, .overflow].map DedicatedVector.number = [0, 1, 2, 3, 4]) ∧
  ∀ (r : Registers8086) (m : MemRef),
    ((effectiveAddress r m).toNat =
      ((r.baseValue m.ea.base).toNat + (r.baseValue m.ea.index).toNat + m.disp.value.toNat) % 2 ^ 16) ∧
    (m.ea = .DIRECT → effectiveAddress r m = m.disp.value) ∧
    (∀ x, m.seg = some x → segmentOf m = x) ∧
    (m.seg = none → (m.ea ∈ [EAForm.BP_SI, .BP_DI, .BP] → segmentOf m = .SS) ∧
      (m.ea ∉ [EAForm.BP_SI, .BP_DI, .BP] → segmentOf m = .DS)) ∧
    operandAddress r m = (16 * (r.segment (segmentOf m)).toNat + (effectiveAddress r m).toNat) % 2 ^ 20

/-- R245: the target of every relative jump and call, short (70 to 7F, E0 to E3, EB) or near (E8, E9), is the raw signed
displacement from the address after the instruction, and modulo 2^16 for a consumer that holds IP. -/
def Obligations.RelativeTargets : Prop :=
  ∀ s : State, s.p0 ≤ s.pos →
    (∀ d : Byte, s.pos + 2 ≤ s.buf.size →
      (∀ row ∈ shortJumpTable, targets s d.toInt (d.signExtend 16) (exec (row.1 d) s)) ∧
      targets s d.toInt (d.signExtend 16) (exec (.jmp (.rel8 d)) s)) ∧
    (∀ d : Word, s.pos + 3 ≤ s.buf.size →
      targets s d.toInt d (exec (.jmp (.rel16 d)) s) ∧ targets s d.toInt d (exec (.call (.rel16 d)) s))

/-! ### The renderer -/

/-- R292, R304: a rendered line is not empty, has no leading or trailing space and no line terminator, and its only
lower-case letter is the `x` of `0x`. -/
def Obligations.RenderedLineCharacters : Prop :=
  ∀ (mode : OutputValueMode) (x : Instruction),
    let l := (render mode x).toList
    l ≠ [] ∧ '\n' ∉ l ∧ '\r' ∉ l ∧ l.head? ≠ some ' ' ∧ l.getLast? ≠ some ' ' ∧ (∀ c ∈ l, c.isLower = true → c = 'x')

/-- Section 2 of 47_renderer.md: decimal numbers have no leading zero and the right value, with `-` before a negative one
and no `+`; hex numbers are `0x` and 2 or 4 upper-case digits of the right value. -/
def Obligations.DecimalsAreExact : Prop :=
  (∀ n : Nat,
    let l := (decimal n).toList
    l.foldl (fun a c => 10 * a + (c.toNat - 48)) 0 = n ∧ (∀ c ∈ l, '0' ≤ c ∧ c ≤ '9') ∧
      (n ≠ 0 → l.head? ≠ some '0') ∧ (n = 0 → l = ['0'])) ∧
  (∀ n : Nat, signedDecimal n = decimal n ∧ (0 < n → signedDecimal (-(n : Int)) = "-" ++ decimal n)) ∧
  (∀ i : Imm,
    let l := (hexText i).toList
    l.take 2 = ['0', 'x'] ∧ l.length = 2 + 2 * i.size ∧
      (∀ c ∈ l.drop 2, ('0' ≤ c ∧ c ≤ '9') ∨ ('A' ≤ c ∧ c ≤ 'F')) ∧
      (l.drop 2).foldl (fun a c => 16 * a + (if c ≤ '9' then c.toNat - 48 else c.toNat - 55)) 0 = i.uint)

/-- R291 to R303: the mnemonic alone, or a space and the operand texts, joined by a comma and a space or, for the far pair,
a colon; registers by name; immediates by role; memory operands as terms in brackets with a signed displacement or an
unsigned direct address, after size keyword and segment prefix. -/
def Obligations.OperandTexts : Prop :=
  (∀ (mode : OutputValueMode) (x : Instruction),
    (x.operands = [] → render mode x = x.type.name) ∧
    (∀ a, x.operands = [a] → render mode x = x.type.name ++ " " ++ operandText mode x a) ∧
    (∀ a b, x.operands = [a, b] →
      (∀ g o, ¬ (a = .immediate g ∧ g.flag = .farSegment ∧ b = .immediate o ∧ o.flag = .farOffset)) →
      render mode x = x.type.name ++ " " ++ operandText mode x a ++ ", " ++ operandText mode x b) ∧
    (∀ g o, x.operands = [.immediate g, .immediate o] → g.flag = .farSegment → o.flag = .farOffset →
      render mode x = x.type.name ++ " " ++ unsignedText mode g ++ ":" ++ unsignedText mode o) ∧
    (∀ r, operandText mode x (.register r) = r.name) ∧
    (∀ i, operandText mode x (.immediate i) = immText mode i) ∧
    (∀ f d, operandText mode x (.memory ⟨f, d, none⟩) = sizeKeyword x ++ memText ⟨f, d, none⟩ ∧
      ∀ g, operandText mode x (.memory ⟨f, d, some g⟩) =
        sizeKeyword x ++ (segName g).name ++ ":" ++ memText ⟨f, d, none⟩)) ∧
  (∀ i : Imm,
    (i.flag = .none → immText .asInteger i = signedDecimal i.sint ∧ immText .asHex i = hexText i) ∧
    (i.flag = .relativeJumpDisplacement → ∀ mode, immText mode i = signedDecimal i.sint) ∧
    (i.flag ∈ [.portNumber, .interruptType, .stackAdjust, .farSegment, .farOffset] →
      immText .asInteger i = decimal i.uint ∧ immText .asHex i = hexText i) ∧
    (i.flag ∈ [.implicitOne, .escapeCode] → ∀ mode, immText mode i = decimal i.uint)) ∧
  (∀ d : Disp, memText ⟨.DIRECT, d, none⟩ = "[" ++ decimal d.value.toNat ++ "]") ∧
  (∀ row ∈ [(EAForm.BX_SI, "BX + SI"), (.BX_DI, "BX + DI"), (.BP_SI, "BP + SI"), (.BP_DI, "BP + DI"), (.SI, "SI"),
      (.DI, "DI"), (.BP, "BP"), (.BX, "BX")], ∀ (d : Disp) (n : Nat),
    (d.value.toInt = 0 → memText ⟨row.1, d, none⟩ = "[" ++ row.2 ++ "]") ∧
    (0 < n → d.value.toInt = n → memText ⟨row.1, d, none⟩ = "[" ++ row.2 ++ " + " ++ decimal n ++ "]") ∧
    (0 < n → d.value.toInt = -(n : Int) → memText ⟨row.1, d, none⟩ = "[" ++ row.2 ++ " - " ++ decimal n ++ "]")) ∧
  (∀ x : Instruction,
    let sized := x.type ∉ [InstructionType.LEA, .LDS, .LES, .CALLF, .JMPF, .ESC] ∧
      (x.operands.length = 1 ∨ x.type ∈ [InstructionType.ROL, .ROR, .RCL, .RCR, .SHL, .SHR, .SAR] ∨
        ∃ i, .immediate i ∈ x.operands)
    (sized → x.width = .byte → sizeKeyword x = "BYTE ") ∧ (sized → x.width = .word → sizeKeyword x = "WORD ") ∧
      (x.width = .none → sizeKeyword x = "") ∧ (¬ sized → sizeKeyword x = "")) ∧
  ([RegisterType.AL, .CL, .DL, .BL, .AH, .CH, .DH, .BH, .AX, .CX, .DX, .BX, .SP, .BP, .SI, .DI, .ES, .CS, .SS, .DS].map
      RegisterType.name = ["AL", "CL", "DL", "BL", "AH", "CH", "DH", "BH", "AX", "CX", "DX", "BX", "SP", "BP", "SI", "DI",
      "ES", "CS", "SS", "DS"]) ∧
  (∀ row ∈ mnemonicTable, row.1.name = row.2)
end

