-- ==== Sys2Proof/Laws/Decode.lean ====
section
/-! SUPPORT. Fields and bytes put together and taken apart again, and the r/m operand read back from its own bytes. -/

namespace Sys2Proof

@[simp] theorem modField_modrmByte (mod : BitVec 2) (reg rm : BitVec 3) : modField (modrmByte mod reg rm) = mod := by
  revert mod reg rm; decide

@[simp] theorem regField_modrmByte (mod : BitVec 2) (reg rm : BitVec 3) : regField (modrmByte mod reg rm) = reg := by
  revert mod reg rm; decide

@[simp] theorem rmField_modrmByte (mod : BitVec 2) (reg rm : BitVec 3) : rmField (modrmByte mod reg rm) = rm := by
  revert mod reg rm; decide

theorem modrmByte_fields (m : Byte) : modrmByte (modField m) (regField m) (rmField m) = m := by
  revert m; decide

@[simp] theorem lowByte_wordOfBytes (lo hi : Byte) : lowByte (wordOfBytes lo hi) = lo := by
  apply BitVec.eq_of_getLsbD_eq
  intro i h
  simp only [lowByte, wordOfBytes, BitVec.getLsbD_append, BitVec.getLsbD_extractLsb']
  simp [h]

@[simp] theorem highByte_wordOfBytes (lo hi : Byte) : highByte (wordOfBytes lo hi) = hi := by
  apply BitVec.eq_of_getLsbD_eq
  intro i h
  simp only [highByte, wordOfBytes, BitVec.getLsbD_append, BitVec.getLsbD_extractLsb']
  simp [h]

@[simp] theorem wordOfBytes_bytes (v : Word) : wordOfBytes (lowByte v) (highByte v) = v := by
  apply BitVec.eq_of_getLsbD_eq
  intro i h
  simp only [lowByte, highByte, wordOfBytes, BitVec.getLsbD_append, BitVec.getLsbD_extractLsb']
  by_cases h8 : i < 8
  · simp [h8]
  · have h1 : i - 8 < 8 := by omega
    have h2 : 8 + (i - 8) = i := by omega
    simp [h8, h1, h2]

@[simp] theorem segOfCode_code (s : SegmentType) : segOfCode s.code = s := by cases s <;> rfl

@[simp] theorem code_segOfCode (c : BitVec 2) : (segOfCode c).code = c := by revert c; decide

/-- A memory operand is read back from its ModRM fields and displacement bytes, and nothing after them is read. -/
theorem readMem_bytes {m : Mem} (h : m.wellFormed = true) (reg : BitVec 3) (k : Mem → Nat → Decoder) (rest : List Byte) :
    readMem (modrmByte m.mod reg m.rm) k (m.dispBytes ++ rest) = k m (2 + m.dispBytes.length) rest := by
  cases m with
  | direct a => simp [readMem, readWord, Mem.mod, Mem.rm, Mem.dispBytes, wordBytes]
  | noDisp r =>
    have h' : r ≠ 6#3 := by simpa [Mem.wellFormed] using h
    simp [readMem, Mem.mod, Mem.rm, Mem.dispBytes, h']
  | disp8 r b => simp [readMem, readByte, Mem.mod, Mem.rm, Mem.dispBytes]
  | disp16 r v => simp [readMem, readWord, Mem.mod, Mem.rm, Mem.dispBytes, wordBytes]

/-- An r/m operand is read back from its ModRM fields and displacement bytes, and nothing after them is read. -/
theorem readRM_bytes {e : RM} (h : e.wellFormed = true) (reg : BitVec 3) (k : RM → Nat → Decoder) (rest : List Byte) :
    readRM (modrmByte e.mod reg e.rm) k (e.dispBytes ++ rest) = k e (2 + e.dispBytes.length) rest := by
  cases e with
  | reg r => simp [readRM, RM.mod, RM.rm, RM.dispBytes]
  | mem m =>
    have hm : modField (modrmByte (RM.mem m).mod reg (RM.mem m).rm) ≠ 3 := by
      rw [modField_modrmByte]; cases m <;> simp [RM.mod, Mem.mod]
    rw [readRM, if_neg hm]
    exact readMem_bytes (m := m) h reg (fun x n => k (.mem x) n) rest

/-- A data immediate is read back from its bytes. -/
theorem readData_bytes (d : Data) (n : Nat) (k : Data → Decoder) (rest : List Byte) :
    readData d.width n k (d.bytes ++ rest) = k d rest := by
  cases d <;> simp [readData, readByte, readWord, Data.width, Data.bytes, wordBytes]

end Sys2Proof
end

