-- ==== Sys2Proof/Laws/Memory.lean ====
section
/-! SUPPORT. The buffer: the canonical form is kept by every operation, a read after a write, and what a buffer built from
bytes reads as. -/

namespace Sys2Proof.Machine

theorem empty_wf : Memory.empty.wf = true := rfl

theorem empty_size : Memory.empty.size = 0 := rfl

/-! ### The canonical form -/

theorem cellsRise_mono {lo lo' : Nat} {cs : List Host.Cell} (h : lo' ≤ lo) (hc : cellsRise lo cs = true) :
    cellsRise lo' cs = true := by
  cases cs with
  | nil => rfl
  | cons c rest => simp only [cellsRise, Bool.and_eq_true, decide_eq_true_eq] at hc ⊢; exact ⟨by omega, hc.2⟩

theorem putCell_cellsRise {lo a : Nat} (b : Byte) {cs : List Host.Cell} (h : lo ≤ a) (hc : cellsRise lo cs = true) :
    cellsRise lo (putCell a b cs) = true := by
  induction cs generalizing lo with
  | nil => by_cases hb : b = 0#8 <;> simp [putCell, hb, cellsRise, h]
  | cons c rest ih =>
    simp only [cellsRise, Bool.and_eq_true, decide_eq_true_eq] at hc
    by_cases h1 : c.1 < a
    · simp only [putCell, h1, ite_true, cellsRise, Bool.and_eq_true, decide_eq_true_eq]
      exact ⟨hc.1, ih (by omega) hc.2⟩
    · by_cases h2 : c.1 = a
      · by_cases hb : b = 0#8
        · simpa [putCell, h1, h2, hb] using cellsRise_mono (by omega) hc.2
        · rw [putCell, if_neg h1, if_pos h2, if_neg hb]
          simpa [cellsRise, h] using h2 ▸ hc.2
      · by_cases hb : b = 0#8
        · simp [putCell, h1, h2, hb, cellsRise, hc.1, hc.2]
        · simp only [putCell, h1, h2, hb, ite_false, cellsRise, Bool.and_eq_true, decide_eq_true_eq]
          exact ⟨h, by omega, hc.2⟩

theorem putCell_mem {a : Nat} {b : Byte} {cs : List Host.Cell} {x : Host.Cell} (h : x ∈ putCell a b cs) :
    x ∈ cs ∨ (x = (a, b) ∧ b ≠ 0#8) := by
  induction cs with
  | nil => by_cases hb : b = 0#8 <;> simp_all [putCell]
  | cons c rest ih =>
    simp only [putCell] at h
    split at h
    · rcases List.mem_cons.1 h with h | h
      · exact .inl (List.mem_cons.2 (.inl h))
      · exact (ih h).imp (List.mem_cons_of_mem _) id
    · split at h
      · split at h
        · exact .inl (List.mem_cons_of_mem _ h)
        · rcases List.mem_cons.1 h with rfl | h
          · exact .inr ⟨rfl, ‹_›⟩
          · exact .inl (List.mem_cons_of_mem _ h)
      · split at h
        · exact .inl h
        · rcases List.mem_cons.1 h with rfl | h
          · exact .inr ⟨rfl, ‹_›⟩
          · exact .inl h

/-- A write keeps the canonical form. -/
theorem write_wf {m : Memory} (a : Nat) (b : Byte) (h : m.wf = true) : (m.write a b).wf = true := by
  simp only [Memory.wf, Bool.and_eq_true, List.all_eq_true, decide_eq_true_eq, bne_iff_ne] at h ⊢
  refine ⟨putCell_cellsRise b (Nat.zero_le a) h.1, fun x hx => ?_⟩
  rcases putCell_mem hx with hx | ⟨rfl, hb⟩
  · exact ⟨lt_of_lt_of_le (h.2 x hx).1 (le_max_left ..), (h.2 x hx).2⟩
  · exact ⟨by simp [Memory.write], hb⟩

/-- Placing a run of bytes keeps the canonical form. -/
theorem place_wf {m : Memory} (a : Nat) (bs : List Byte) (h : m.wf = true) : (m.place a bs).wf = true := by
  induction bs generalizing m a with
  | nil => exact h
  | cons b bs ih => exact ih (a + 1) (write_wf a b h)

theorem ofBytes_wf (bs : List Byte) : (Memory.ofBytes bs).wf = true := place_wf 0 bs empty_wf

/-! ### Reading -/

theorem lookupCell_of_lt {lo a : Nat} {cs : List Host.Cell} (hc : cellsRise lo cs = true) (h : a < lo) :
    lookupCell a cs = 0#8 := by
  induction cs generalizing lo with
  | nil => rfl
  | cons c rest ih =>
    simp only [cellsRise, Bool.and_eq_true, decide_eq_true_eq] at hc
    rw [lookupCell, if_neg (by omega)]
    exact ih hc.2 (by omega)

theorem lookupCell_putCell_same {lo a : Nat} (b : Byte) {cs : List Host.Cell} (hc : cellsRise lo cs = true) :
    lookupCell a (putCell a b cs) = b := by
  induction cs generalizing lo with
  | nil => by_cases hb : b = 0#8 <;> simp [putCell, hb, lookupCell]
  | cons c rest ih =>
    simp only [cellsRise, Bool.and_eq_true, decide_eq_true_eq] at hc
    by_cases h1 : c.1 < a
    · rw [putCell, if_pos h1, lookupCell, if_neg (by omega)]; exact ih hc.2
    · by_cases h2 : c.1 = a
      · by_cases hb : b = 0#8
        · simpa [putCell, h1, h2, hb] using lookupCell_of_lt hc.2 (by omega)
        · simp [putCell, h2, hb, lookupCell]
      · by_cases hb : b = 0#8
        · have hr : cellsRise c.1 (c :: rest) = true := by simp [cellsRise, hc.2]
          simpa [putCell, h1, h2, hb] using lookupCell_of_lt hr (by omega)
        · simp [putCell, h1, h2, hb, lookupCell]

theorem lookupCell_putCell_other {a a' : Nat} (b : Byte) (cs : List Host.Cell) (h : a' ≠ a) :
    lookupCell a' (putCell a b cs) = lookupCell a' cs := by
  induction cs with
  | nil => by_cases hb : b = 0#8 <;> simp [putCell, hb, lookupCell, Ne.symm h]
  | cons c rest ih =>
    by_cases h1 : c.1 < a
    · simp only [putCell, h1, ite_true, lookupCell, ih]
    · by_cases h2 : c.1 = a
      · by_cases hb : b = 0#8 <;> simp [putCell, h2, hb, lookupCell, Ne.symm h]
      · by_cases hb : b = 0#8 <;> simp [putCell, h1, h2, hb, lookupCell, Ne.symm h]

theorem wf_cellsRise {m : Memory} (h : m.wf = true) : cellsRise 0 m.cells = true := by
  simp only [Memory.wf, Bool.and_eq_true] at h; exact h.1

theorem write_size (m : Memory) (a : Nat) (b : Byte) : (m.write a b).size = max m.size (a + 1) := rfl

/-- A read after a write to the same offset gives the byte written. -/
theorem read_write_same {m : Memory} (a : Nat) (b : Byte) (h : m.wf = true) : (m.write a b).read a = some b := by
  have := lookupCell_putCell_same (a := a) b (wf_cellsRise h)
  simp [Memory.read, Memory.write, this]

/-- A write leaves every other offset that exists alone. -/
theorem read_write_other {m : Memory} {a a' : Nat} (b : Byte) (h : a' ≠ a) (hs : a' < m.size) :
    (m.write a b).read a' = m.read a' := by
  have := lookupCell_putCell_other b m.cells h
  simp [Memory.read, Memory.write, this, hs]

theorem place_size (m : Memory) (a : Nat) (bs : List Byte) (h : a ≤ m.size) :
    (m.place a bs).size = max m.size (a + bs.length) := by
  induction bs generalizing m a with
  | nil => simp [Memory.place, h]
  | cons b bs ih =>
    rw [Memory.place, ih _ _ (by simp [write_size]), write_size, List.length_cons]; omega

theorem ofBytes_size (bs : List Byte) : (Memory.ofBytes bs).size = bs.length := by
  rw [Memory.ofBytes, place_size _ _ _ (Nat.zero_le _), empty_size]; omega

/-- Placing bytes leaves the offsets below them alone. -/
theorem read_place_below {m : Memory} {a a' : Nat} (bs : List Byte) (h : a' < a) (hs : a ≤ m.size) :
    (m.place a bs).read a' = m.read a' := by
  induction bs generalizing m a with
  | nil => rfl
  | cons b bs ih =>
    rw [Memory.place, ih (by omega) (by simp [write_size]), read_write_other b (by omega) (by omega)]

/-- The bytes placed are read back at their offsets. -/
theorem read_place {m : Memory} {a : Nat} (bs : List Byte) (k : Nat) (hk : k < bs.length) (hs : a ≤ m.size)
    (hw : m.wf = true) : (m.place a bs).read (a + k) = some bs[k] := by
  induction bs generalizing m a k with
  | nil => simp at hk
  | cons b bs ih =>
    cases k with
    | zero =>
      have := read_write_same a b hw
      rw [Memory.place, read_place_below bs (by omega) (by simp [write_size])]
      simpa using this
    | succ k =>
      have := ih (m := m.write a b) (a := a + 1) k (by simpa using hk) (by simp [write_size]) (write_wf a b hw)
      rw [Memory.place, show a + (k + 1) = a + 1 + k by omega, this]
      rfl

/-- A buffer built from bytes reads as those bytes (10_state.md R21). -/
theorem read_ofBytes (bs : List Byte) (k : Nat) : (Memory.ofBytes bs).read k = bs[k]? := by
  by_cases hk : k < bs.length
  · have := read_place (m := Memory.empty) (a := 0) bs k hk (Nat.zero_le _) empty_wf
    rw [Nat.zero_add] at this
    rw [Memory.ofBytes, this, List.getElem?_eq_getElem hk]
  · rw [List.getElem?_eq_none (by omega)]
    simp [Memory.read, ofBytes_size, hk]

/-! ### Runs of bytes -/

theorem read_eq_some_iff {m : Memory} {a : Nat} : (∃ b, m.read a = some b) ↔ a < m.size := by
  simp [Memory.read]

theorem slice_zero (m : Memory) (a : Nat) : m.slice a 0 = [] := rfl

/-- A run is its first byte and the run after it. -/
theorem slice_succ {m : Memory} {a : Nat} (n : Nat) (h : a < m.size) :
    m.slice a (n + 1) = lookupCell a m.cells :: m.slice (a + 1) n := by
  simp only [Memory.slice, List.range_succ_eq_map, List.filterMap_cons, Nat.add_zero, List.filterMap_map]
  simp only [Memory.read, h, ite_true]
  congr 1
  apply List.filterMap_congr
  intro k _
  simp [Nat.add_comm 1, Nat.add_assoc]

/-- A run inside the buffer has its full length. -/
theorem slice_length {m : Memory} (a n : Nat) (h : a + n ≤ m.size) : (m.slice a n).length = n := by
  induction n generalizing a with
  | zero => rfl
  | succ n ih => rw [slice_succ n (by omega), List.length_cons, ih (a + 1) (by omega)]

end Sys2Proof.Machine
end

