-- ==== Sys2Proof/Laws/State.lean ====
section
/-! SUPPORT. One lemma per field and named update of State, each true by `rfl`, so that no proof unfolds an update. -/

namespace Sys2Proof.Machine

/-! ### clearLatches -/

@[simp] theorem clearLatches_buf (s : State) : (s.clearLatches).buf = s.buf := rfl

@[simp] theorem clearLatches_label (s : State) : (s.clearLatches).label = s.label := rfl

@[simp] theorem clearLatches_mode (s : State) : (s.clearLatches).mode = s.mode := rfl

@[simp] theorem clearLatches_entryPoint (s : State) : (s.clearLatches).entryPoint = s.entryPoint := rfl

@[simp] theorem clearLatches_pos (s : State) : (s.clearLatches).pos = s.pos := rfl

@[simp] theorem clearLatches_phase (s : State) : (s.clearLatches).phase = s.phase := rfl

@[simp] theorem clearLatches_trail (s : State) : (s.clearLatches).trail = s.trail := rfl

@[simp] theorem clearLatches_p0 (s : State) : (s.clearLatches).p0 = s.p0 := rfl

@[simp] theorem clearLatches_seg (s : State) : (s.clearLatches).seg = none := rfl

@[simp] theorem clearLatches_op (s : State) : (s.clearLatches).op = 0 := rfl

@[simp] theorem clearLatches_opOffset (s : State) : (s.clearLatches).opOffset = 0 := rfl

@[simp] theorem clearLatches_entry (s : State) : (s.clearLatches).entry = .unknown := rfl

@[simp] theorem clearLatches_mod (s : State) : (s.clearLatches).mod = 0 := rfl

@[simp] theorem clearLatches_reg (s : State) : (s.clearLatches).reg = 0 := rfl

@[simp] theorem clearLatches_rm (s : State) : (s.clearLatches).rm = 0 := rfl

@[simp] theorem clearLatches_modrmOffset (s : State) : (s.clearLatches).modrmOffset = 0 := rfl

@[simp] theorem clearLatches_disp (s : State) : (s.clearLatches).disp = .noDisp := rfl

@[simp] theorem clearLatches_imm1 (s : State) : (s.clearLatches).imm1 = .byte 0 .none := rfl

@[simp] theorem clearLatches_imm2 (s : State) : (s.clearLatches).imm2 = .byte 0 .none := rfl

@[simp] theorem clearLatches_result (s : State) : (s.clearLatches).result = s.result := rfl

@[simp] theorem clearLatches_lines (s : State) : (s.clearLatches).lines = s.lines := rfl

@[simp] theorem clearLatches_text (s : State) : (s.clearLatches).text = s.text := rfl

/-! ### beginCall -/

@[simp] theorem beginCall_buf (s : State) : (s.beginCall).buf = s.buf := rfl

@[simp] theorem beginCall_label (s : State) : (s.beginCall).label = s.label := rfl

@[simp] theorem beginCall_mode (s : State) : (s.beginCall).mode = s.mode := rfl

@[simp] theorem beginCall_entryPoint (s : State) : (s.beginCall).entryPoint = s.entryPoint := rfl

@[simp] theorem beginCall_pos (s : State) : (s.beginCall).pos = s.pos := rfl

@[simp] theorem beginCall_phase (s : State) : (s.beginCall).phase = .start := rfl

@[simp] theorem beginCall_trail (s : State) : (s.beginCall).trail = [.start] := rfl

@[simp] theorem beginCall_p0 (s : State) : (s.beginCall).p0 = s.pos := rfl

@[simp] theorem beginCall_seg (s : State) : (s.beginCall).seg = none := rfl

@[simp] theorem beginCall_op (s : State) : (s.beginCall).op = 0 := rfl

@[simp] theorem beginCall_opOffset (s : State) : (s.beginCall).opOffset = 0 := rfl

@[simp] theorem beginCall_entry (s : State) : (s.beginCall).entry = .unknown := rfl

@[simp] theorem beginCall_mod (s : State) : (s.beginCall).mod = 0 := rfl

@[simp] theorem beginCall_reg (s : State) : (s.beginCall).reg = 0 := rfl

@[simp] theorem beginCall_rm (s : State) : (s.beginCall).rm = 0 := rfl

@[simp] theorem beginCall_modrmOffset (s : State) : (s.beginCall).modrmOffset = 0 := rfl

@[simp] theorem beginCall_disp (s : State) : (s.beginCall).disp = .noDisp := rfl

@[simp] theorem beginCall_imm1 (s : State) : (s.beginCall).imm1 = .byte 0 .none := rfl

@[simp] theorem beginCall_imm2 (s : State) : (s.beginCall).imm2 = .byte 0 .none := rfl

@[simp] theorem beginCall_result (s : State) : (s.beginCall).result = none := rfl

@[simp] theorem beginCall_lines (s : State) : (s.beginCall).lines = s.lines := rfl

@[simp] theorem beginCall_text (s : State) : (s.beginCall).text = s.text := rfl

/-! ### through -/

@[simp] theorem through_buf (ps : List Phase) (s : State) : (s.through ps).buf = s.buf := rfl

@[simp] theorem through_label (ps : List Phase) (s : State) : (s.through ps).label = s.label := rfl

@[simp] theorem through_mode (ps : List Phase) (s : State) : (s.through ps).mode = s.mode := rfl

@[simp] theorem through_entryPoint (ps : List Phase) (s : State) : (s.through ps).entryPoint = s.entryPoint := rfl

@[simp] theorem through_pos (ps : List Phase) (s : State) : (s.through ps).pos = s.pos := rfl

@[simp] theorem through_phase (ps : List Phase) (s : State) : (s.through ps).phase = ps.getLastD s.phase := rfl

@[simp] theorem through_trail (ps : List Phase) (s : State) : (s.through ps).trail = s.trail ++ ps := rfl

@[simp] theorem through_p0 (ps : List Phase) (s : State) : (s.through ps).p0 = s.p0 := rfl

@[simp] theorem through_seg (ps : List Phase) (s : State) : (s.through ps).seg = s.seg := rfl

@[simp] theorem through_op (ps : List Phase) (s : State) : (s.through ps).op = s.op := rfl

@[simp] theorem through_opOffset (ps : List Phase) (s : State) : (s.through ps).opOffset = s.opOffset := rfl

@[simp] theorem through_entry (ps : List Phase) (s : State) : (s.through ps).entry = s.entry := rfl

@[simp] theorem through_mod (ps : List Phase) (s : State) : (s.through ps).mod = s.mod := rfl

@[simp] theorem through_reg (ps : List Phase) (s : State) : (s.through ps).reg = s.reg := rfl

@[simp] theorem through_rm (ps : List Phase) (s : State) : (s.through ps).rm = s.rm := rfl

@[simp] theorem through_modrmOffset (ps : List Phase) (s : State) : (s.through ps).modrmOffset = s.modrmOffset := rfl

@[simp] theorem through_disp (ps : List Phase) (s : State) : (s.through ps).disp = s.disp := rfl

@[simp] theorem through_imm1 (ps : List Phase) (s : State) : (s.through ps).imm1 = s.imm1 := rfl

@[simp] theorem through_imm2 (ps : List Phase) (s : State) : (s.through ps).imm2 = s.imm2 := rfl

@[simp] theorem through_result (ps : List Phase) (s : State) : (s.through ps).result = s.result := rfl

@[simp] theorem through_lines (ps : List Phase) (s : State) : (s.through ps).lines = s.lines := rfl

@[simp] theorem through_text (ps : List Phase) (s : State) : (s.through ps).text = s.text := rfl

@[simp] theorem through_nil (s : State) : s.through [] = s := by simp [State.through]

/-- Phases passed in turn are passed at once. -/
@[simp] theorem through_through (ps qs : List Phase) (s : State) : (s.through ps).through qs = s.through (ps ++ qs) := by
  cases qs with
  | nil => simp [State.through]
  | cons q qs => simp [State.through, List.getLastD_eq_getLast?, List.getLast?_append]

/-! ### takeError -/

@[simp] theorem takeError_buf (e : Error) (s : State) : (takeError e s).buf = s.buf := rfl

@[simp] theorem takeError_label (e : Error) (s : State) : (takeError e s).label = s.label := rfl

@[simp] theorem takeError_mode (e : Error) (s : State) : (takeError e s).mode = s.mode := rfl

@[simp] theorem takeError_entryPoint (e : Error) (s : State) : (takeError e s).entryPoint = s.entryPoint := rfl

@[simp] theorem takeError_pos (e : Error) (s : State) : (takeError e s).pos = e.cursor := rfl

@[simp] theorem takeError_phase (e : Error) (s : State) : (takeError e s).phase = .failed e := rfl

@[simp] theorem takeError_trail (e : Error) (s : State) : (takeError e s).trail = s.trail ++ [.failed e] := rfl

@[simp] theorem takeError_p0 (e : Error) (s : State) : (takeError e s).p0 = s.p0 := rfl

@[simp] theorem takeError_seg (e : Error) (s : State) : (takeError e s).seg = none := rfl

@[simp] theorem takeError_op (e : Error) (s : State) : (takeError e s).op = 0 := rfl

@[simp] theorem takeError_opOffset (e : Error) (s : State) : (takeError e s).opOffset = 0 := rfl

@[simp] theorem takeError_entry (e : Error) (s : State) : (takeError e s).entry = .unknown := rfl

@[simp] theorem takeError_mod (e : Error) (s : State) : (takeError e s).mod = 0 := rfl

@[simp] theorem takeError_reg (e : Error) (s : State) : (takeError e s).reg = 0 := rfl

@[simp] theorem takeError_rm (e : Error) (s : State) : (takeError e s).rm = 0 := rfl

@[simp] theorem takeError_modrmOffset (e : Error) (s : State) : (takeError e s).modrmOffset = 0 := rfl

@[simp] theorem takeError_disp (e : Error) (s : State) : (takeError e s).disp = .noDisp := rfl

@[simp] theorem takeError_imm1 (e : Error) (s : State) : (takeError e s).imm1 = .byte 0 .none := rfl

@[simp] theorem takeError_imm2 (e : Error) (s : State) : (takeError e s).imm2 = .byte 0 .none := rfl

@[simp] theorem takeError_result (e : Error) (s : State) : (takeError e s).result = some (.err e) := rfl

@[simp] theorem takeError_lines (e : Error) (s : State) :
    (takeError e s).lines = if s.entryPoint = .getAssembly then [] else s.lines := rfl

@[simp] theorem takeError_text (e : Error) (s : State) :
    (takeError e s).text = if s.entryPoint = .getAssembly then some (.err e) else s.text := rfl

/-! ### complete -/

@[simp] theorem complete_buf (type : InstructionType) (width : DataWidth) (operands : List Operand) (s : State) :
    (complete type width operands s).buf = s.buf := rfl

@[simp] theorem complete_label (type : InstructionType) (width : DataWidth) (operands : List Operand) (s : State) :
    (complete type width operands s).label = s.label := rfl

@[simp] theorem complete_mode (type : InstructionType) (width : DataWidth) (operands : List Operand) (s : State) :
    (complete type width operands s).mode = s.mode := rfl

@[simp] theorem complete_entryPoint (type : InstructionType) (width : DataWidth) (operands : List Operand) (s : State) :
    (complete type width operands s).entryPoint = s.entryPoint := rfl

@[simp] theorem complete_pos (type : InstructionType) (width : DataWidth) (operands : List Operand) (s : State) :
    (complete type width operands s).pos = s.pos := rfl

@[simp] theorem complete_phase (type : InstructionType) (width : DataWidth) (operands : List Operand) (s : State) :
    (complete type width operands s).phase = .complete := rfl

@[simp] theorem complete_trail (type : InstructionType) (width : DataWidth) (operands : List Operand) (s : State) :
    (complete type width operands s).trail = s.trail ++ [.complete] := rfl

@[simp] theorem complete_p0 (type : InstructionType) (width : DataWidth) (operands : List Operand) (s : State) :
    (complete type width operands s).p0 = s.p0 := rfl

@[simp] theorem complete_seg (type : InstructionType) (width : DataWidth) (operands : List Operand) (s : State) :
    (complete type width operands s).seg = s.seg := rfl

@[simp] theorem complete_op (type : InstructionType) (width : DataWidth) (operands : List Operand) (s : State) :
    (complete type width operands s).op = s.op := rfl

@[simp] theorem complete_opOffset (type : InstructionType) (width : DataWidth) (operands : List Operand) (s : State) :
    (complete type width operands s).opOffset = s.opOffset := rfl

@[simp] theorem complete_entry (type : InstructionType) (width : DataWidth) (operands : List Operand) (s : State) :
    (complete type width operands s).entry = s.entry := rfl

@[simp] theorem complete_mod (type : InstructionType) (width : DataWidth) (operands : List Operand) (s : State) :
    (complete type width operands s).mod = s.mod := rfl

@[simp] theorem complete_reg (type : InstructionType) (width : DataWidth) (operands : List Operand) (s : State) :
    (complete type width operands s).reg = s.reg := rfl

@[simp] theorem complete_rm (type : InstructionType) (width : DataWidth) (operands : List Operand) (s : State) :
    (complete type width operands s).rm = s.rm := rfl

@[simp] theorem complete_modrmOffset (type : InstructionType) (width : DataWidth) (operands : List Operand) (s : State) :
    (complete type width operands s).modrmOffset = s.modrmOffset := rfl

@[simp] theorem complete_disp (type : InstructionType) (width : DataWidth) (operands : List Operand) (s : State) :
    (complete type width operands s).disp = s.disp := rfl

@[simp] theorem complete_imm1 (type : InstructionType) (width : DataWidth) (operands : List Operand) (s : State) :
    (complete type width operands s).imm1 = s.imm1 := rfl

@[simp] theorem complete_imm2 (type : InstructionType) (width : DataWidth) (operands : List Operand) (s : State) :
    (complete type width operands s).imm2 = s.imm2 := rfl

@[simp] theorem complete_result (type : InstructionType) (width : DataWidth) (operands : List Operand) (s : State) :
    (complete type width operands s).result = some (.ok ⟨s.op, s.pos - s.p0, type, width, operands⟩) := rfl

@[simp] theorem complete_lines (type : InstructionType) (width : DataWidth) (operands : List Operand) (s : State) :
    (complete type width operands s).lines = if s.entryPoint = .getAssembly then s.lines ++ [render s.mode ⟨s.op, s.pos - s.p0, type, width, operands⟩] else s.lines := rfl

@[simp] theorem complete_text (type : InstructionType) (width : DataWidth) (operands : List Operand) (s : State) :
    (complete type width operands s).text = s.text := rfl

/-! ### returnText -/

@[simp] theorem returnText_buf (s : State) : (s.returnText).buf = s.buf := rfl

@[simp] theorem returnText_label (s : State) : (s.returnText).label = s.label := rfl

@[simp] theorem returnText_mode (s : State) : (s.returnText).mode = s.mode := rfl

@[simp] theorem returnText_entryPoint (s : State) : (s.returnText).entryPoint = s.entryPoint := rfl

@[simp] theorem returnText_pos (s : State) : (s.returnText).pos = s.pos := rfl

@[simp] theorem returnText_phase (s : State) : (s.returnText).phase = s.phase := rfl

@[simp] theorem returnText_trail (s : State) : (s.returnText).trail = s.trail := rfl

@[simp] theorem returnText_p0 (s : State) : (s.returnText).p0 = s.p0 := rfl

@[simp] theorem returnText_seg (s : State) : (s.returnText).seg = s.seg := rfl

@[simp] theorem returnText_op (s : State) : (s.returnText).op = s.op := rfl

@[simp] theorem returnText_opOffset (s : State) : (s.returnText).opOffset = s.opOffset := rfl

@[simp] theorem returnText_entry (s : State) : (s.returnText).entry = s.entry := rfl

@[simp] theorem returnText_mod (s : State) : (s.returnText).mod = s.mod := rfl

@[simp] theorem returnText_reg (s : State) : (s.returnText).reg = s.reg := rfl

@[simp] theorem returnText_rm (s : State) : (s.returnText).rm = s.rm := rfl

@[simp] theorem returnText_modrmOffset (s : State) : (s.returnText).modrmOffset = s.modrmOffset := rfl

@[simp] theorem returnText_disp (s : State) : (s.returnText).disp = s.disp := rfl

@[simp] theorem returnText_imm1 (s : State) : (s.returnText).imm1 = s.imm1 := rfl

@[simp] theorem returnText_imm2 (s : State) : (s.returnText).imm2 = s.imm2 := rfl

@[simp] theorem returnText_result (s : State) : (s.returnText).result = s.result := rfl

@[simp] theorem returnText_lines (s : State) : (s.returnText).lines = s.lines := rfl

@[simp] theorem returnText_text (s : State) : (s.returnText).text = some (.ok (joinWith "\n" s.lines)) := rfl

end Sys2Proof.Machine
end

