-- ==== Sys2Proof/Laws/Ops.lean ====
section
/-! SUPPORT. What each shared operation can do, said once, and the one inversion of `exec`: every meaning is a prefix
byte or a decode of one of five shapes. -/

namespace Sys2Proof.Machine

/-! ### The cursor and the parts -/

theorem reading_ok {n : Nat} {s : State} (next : Nat → State) (h : s.pos + n ≤ s.buf.size) :
    reading n s next = .ok (next (s.pos + n)) := by
  simp [reading, h]

theorem reading_error {n : Nat} {s : State} (next : Nat → State) (h : ¬ s.pos + n ≤ s.buf.size) :
    reading n s next = .error (endOfStreamError s.p0 s.pos, s) := by
  simp [reading, h]

/-- The state after the opcode byte. -/
def State.withOpcode (op : Byte) (s : State) : State :=
  { s with
    pos := s.pos + 1
    op := op
    opOffset := s.pos
    entry := primary op
    phase := .opcodeRead
    trail := s.trail ++ [.opcodeRead] }

/-- The state after the ModRM byte. -/
def State.withModrm (reg : BitVec 3) (e : RM) (s : State) : State :=
  { s with
    pos := s.pos + 1
    mod := e.mod
    reg := reg
    rm := e.rm
    modrmOffset := s.pos
    phase := .modrmRead
    trail := s.trail ++ [.modrmRead] }

/-- The state after a displacement field of `n` bytes. -/
def State.withDisp (n : Nat) (d : Disp) (s : State) : State :=
  { s with pos := s.pos + n, disp := d, phase := .displacementRead, trail := s.trail ++ [.displacementRead] }

/-- The state after the first immediate field. -/
def State.withImm1 (i : Imm) (s : State) : State :=
  { s with pos := s.pos + i.size, imm1 := i, phase := .immediateRead, trail := s.trail ++ [.immediateRead] }

/-- The state after the second immediate field. -/
def State.withImm2 (i : Imm) (s : State) : State := { s with pos := s.pos + i.size, imm2 := i }

theorem opcodeRead_ok {op : Byte} {s : State} (h : s.pos + 1 ≤ s.buf.size) :
    opcodeRead op s = .ok (s.withOpcode op) := reading_ok _ h

theorem modrmRead_ok {reg : BitVec 3} {e : RM} {s : State} (h : s.pos + 1 ≤ s.buf.size) :
    modrmRead reg e s = .ok (s.withModrm reg e) := reading_ok _ h

theorem displacementField_ok {n : Nat} {d : Disp} {s : State} (h : s.pos + n ≤ s.buf.size) :
    displacementField n d s = .ok (s.withDisp n d) := reading_ok _ h

theorem imm1Read_ok {i : Imm} {s : State} (h : s.pos + i.size ≤ s.buf.size) : imm1Read i s = .ok (s.withImm1 i) :=
  reading_ok _ h

theorem imm2Read_ok {i : Imm} {s : State} (h : s.pos + i.size ≤ s.buf.size) : imm2Read i s = .ok (s.withImm2 i) :=
  reading_ok _ h

@[simp] theorem runParts_nil (s : State) : runParts [] s = .ok s := rfl

theorem runParts_cons_ok {p : Part} {ps : List Part} {s t : State} (h : p s = .ok t) :
    runParts (p :: ps) s = runParts ps t := by
  simp [runParts, h]

theorem runParts_cons_error {p : Part} {ps : List Part} {s : State} {e : Error × State} (h : p s = .error e) :
    runParts (p :: ps) s = .error e := by
  simp [runParts, h]

/-! ### What a part keeps -/

/-- `t` differs from `s` at most in the cursor, which does not move back and stays in the buffer if it was in it, the
phase, its trail, and the latches other than `p0` and `seg`. -/
structure Keeps (s t : State) : Prop where
  buf : t.buf = s.buf
  label : t.label = s.label
  mode : t.mode = s.mode
  entryPoint : t.entryPoint = s.entryPoint
  p0 : t.p0 = s.p0
  seg : t.seg = s.seg
  result : t.result = s.result
  lines : t.lines = s.lines
  text : t.text = s.text
  pos_ge : s.pos ≤ t.pos
  pos_le : s.pos ≤ s.buf.size → t.pos ≤ s.buf.size
  trail : ∃ w, t.trail = s.trail ++ w

theorem Keeps.refl (s : State) : Keeps s s :=
  ⟨rfl, rfl, rfl, rfl, rfl, rfl, rfl, rfl, rfl, le_refl _, id, [], (List.append_nil _).symm⟩

theorem Keeps.trans {s t u : State} (a : Keeps s t) (b : Keeps t u) : Keeps s u where
  buf := b.buf.trans a.buf
  label := b.label.trans a.label
  mode := b.mode.trans a.mode
  entryPoint := b.entryPoint.trans a.entryPoint
  p0 := b.p0.trans a.p0
  seg := b.seg.trans a.seg
  result := b.result.trans a.result
  lines := b.lines.trans a.lines
  text := b.text.trans a.text
  pos_ge := a.pos_ge.trans b.pos_ge
  pos_le := fun h => a.buf ▸ b.pos_le (a.buf ▸ a.pos_le h)
  trail := by
    obtain ⟨v, hv⟩ := a.trail
    obtain ⟨w, hw⟩ := b.trail
    exact ⟨v ++ w, by rw [hw, hv, List.append_assoc]⟩

theorem Keeps.through (ps : List Phase) (s : State) : Keeps s (s.through ps) :=
  ⟨rfl, rfl, rfl, rfl, rfl, rfl, rfl, rfl, rfl, le_refl _, id, ps, rfl⟩

/-- A part that fails leaves nothing but the phases it has passed: the error is taken as if only they had been passed. -/
theorem Keeps.takeError_eq {s t : State} (h : Keeps s t) (e : Error) {w : List Phase} (hw : t.trail = s.trail ++ w) :
    takeError e t = takeError e (s.through w) := by
  simp only [takeError, State.clearLatches, State.through, h.buf, h.label, h.mode, h.entryPoint, h.p0, h.result, h.lines,
    h.text, hw]
  rfl

/-- `e` is the end of the stream, found at or after the cursor of `s` and not past the end of the buffer. -/
structure EndsStream (s : State) (e : Error) : Prop where
  eq : e = endOfStreamError s.p0 e.offset
  ge : s.pos ≤ e.offset
  le : s.pos ≤ s.buf.size → e.offset ≤ s.buf.size

theorem EndsStream.of_keeps {s t : State} {e : Error} (a : Keeps s t) (b : EndsStream t e) : EndsStream s e where
  eq := a.p0 ▸ b.eq
  ge := a.pos_ge.trans b.ge
  le := fun h => a.buf ▸ b.le (a.buf ▸ a.pos_le h)

/-- A part only reads: it keeps what `Keeps` says, and may end with the end of the stream. -/
def Part.Reads (p : Part) : Prop :=
  ∀ s, (∃ t, p s = .ok t ∧ Keeps s t) ∨ ∃ e t, p s = .error (e, t) ∧ EndsStream s e ∧ Keeps s t

theorem endsStream_here (s : State) : EndsStream s (endOfStreamError s.p0 s.pos) := ⟨rfl, le_refl _, id⟩

theorem opcodeRead_reads (op : Byte) : Part.Reads (opcodeRead op) := by
  intro s
  by_cases h : s.pos + 1 ≤ s.buf.size
  · exact .inl ⟨_, opcodeRead_ok h, ⟨rfl, rfl, rfl, rfl, rfl, rfl, rfl, rfl, rfl, Nat.le_add_right .., fun _ => h, _, rfl⟩⟩
  · exact .inr ⟨_, _, reading_error _ h, endsStream_here s, .refl s⟩

theorem modrmRead_reads (reg : BitVec 3) (e : RM) : Part.Reads (modrmRead reg e) := by
  intro s
  by_cases h : s.pos + 1 ≤ s.buf.size
  · exact .inl ⟨_, modrmRead_ok h, ⟨rfl, rfl, rfl, rfl, rfl, rfl, rfl, rfl, rfl, Nat.le_add_right .., fun _ => h, _, rfl⟩⟩
  · exact .inr ⟨_, _, reading_error _ h, endsStream_here s, .refl s⟩

theorem displacementField_reads (n : Nat) (d : Disp) : Part.Reads (displacementField n d) := by
  intro s
  by_cases h : s.pos + n ≤ s.buf.size
  · exact .inl ⟨_, displacementField_ok h, ⟨rfl, rfl, rfl, rfl, rfl, rfl, rfl, rfl, rfl, Nat.le_add_right .., fun _ => h, _, rfl⟩⟩
  · exact .inr ⟨_, _, reading_error _ h, endsStream_here s, .refl s⟩

theorem displacementRead_reads (e : RM) : Part.Reads (displacementRead e) := by
  cases e with
  | reg r => exact fun s => .inl ⟨s, rfl, .refl s⟩
  | mem m =>
    cases m with
    | direct a => exact displacementField_reads 2 _
    | noDisp r =>
      exact fun s => .inl ⟨_, rfl, ⟨rfl, rfl, rfl, rfl, rfl, rfl, rfl, rfl, rfl, le_refl _, id, [], (List.append_nil _).symm⟩⟩
    | disp8 r b => exact displacementField_reads 1 _
    | disp16 r v => exact displacementField_reads 2 _

theorem imm1Read_error {i : Imm} {s : State} (h : ¬ s.pos + i.size ≤ s.buf.size) :
    imm1Read i s = .error (endOfStreamError s.p0 s.pos, s.through [.immediateRead]) :=
  reading_error (s := s.through [.immediateRead]) _ h

theorem imm1Read_reads (i : Imm) : Part.Reads (imm1Read i) := by
  intro s
  by_cases h : s.pos + i.size ≤ s.buf.size
  · exact .inl ⟨_, imm1Read_ok h, ⟨rfl, rfl, rfl, rfl, rfl, rfl, rfl, rfl, rfl, Nat.le_add_right .., fun _ => h, _, rfl⟩⟩
  · exact .inr ⟨_, _, imm1Read_error h, endsStream_here s, .through _ s⟩

theorem imm2Read_reads (i : Imm) : Part.Reads (imm2Read i) := by
  intro s
  by_cases h : s.pos + i.size ≤ s.buf.size
  · exact .inl ⟨_, imm2Read_ok h, ⟨rfl, rfl, rfl, rfl, rfl, rfl, rfl, rfl, rfl, Nat.le_add_right .., fun _ => h, [], (List.append_nil _).symm⟩⟩
  · exact .inr ⟨_, _, reading_error _ h, endsStream_here s, .refl s⟩

/-- Parts that only read, one after another, only read. -/
theorem runParts_reads {ps : List Part} (h : ∀ p ∈ ps, Part.Reads p) : Part.Reads (runParts ps) := by
  induction ps with
  | nil => exact fun s => .inl ⟨s, rfl, .refl s⟩
  | cons p ps ih =>
    intro s
    rcases h p (List.mem_cons_self ..) s with ⟨t, ht, hk⟩ | ⟨e, t, he, hs, hk⟩
    · rcases ih (fun q hq => h q (List.mem_cons_of_mem _ hq)) t with ⟨u, hu, hku⟩ | ⟨e, u, he, hs, hku⟩
      · exact .inl ⟨u, by rw [runParts_cons_ok ht, hu], hk.trans hku⟩
      · exact .inr ⟨e, u, by rw [runParts_cons_ok ht, he], hs.of_keeps hk, hk.trans hku⟩
    · exact .inr ⟨e, t, runParts_cons_error he, hs, hk⟩

/-! ### A whole decode -/

/-- The five shapes of a decode after its prefixes (30_encoding.md R70). -/
inductive DecodeParts : List Part → Prop where
  | short (op : Byte) : DecodeParts [opcodeRead op]
  | imm (op : Byte) (i : Imm) : DecodeParts [opcodeRead op, imm1Read i]
  | far (op : Byte) (i j : Imm) : DecodeParts [opcodeRead op, imm1Read i, imm2Read j]
  | rm (op : Byte) (reg : BitVec 3) (e : RM) : DecodeParts [opcodeRead op, modrmRead reg e, displacementRead e]
  | rmImm (op : Byte) (reg : BitVec 3) (e : RM) (i : Imm) :
    DecodeParts [opcodeRead op, modrmRead reg e, displacementRead e, imm1Read i]

theorem DecodeParts.reads {ps : List Part} (h : DecodeParts ps) : Part.Reads (runParts ps) := by
  apply runParts_reads
  cases h <;> simp [opcodeRead_reads, modrmRead_reads, displacementRead_reads, imm1Read_reads, imm2Read_reads]

/-- A decode answers a next state, always: its `Ok`, or the end of the stream taken. -/
theorem decodeWith_cases (parts : List Part) (type : InstructionType) (width : DataWidth) (operands : List Operand)
    (s : State) :
    (∃ t, runParts parts s = .ok t ∧ decodeWith parts type width operands s = .next (complete type width operands t)) ∨
    (∃ e t, runParts parts s = .error (e, t) ∧ decodeWith parts type width operands s = .next (takeError e t)) := by
  unfold decodeWith
  cases h : runParts parts s with
  | ok t => exact .inl ⟨t, rfl, rfl⟩
  | error x => exact .inr ⟨x.1, x.2, rfl, rfl⟩

theorem readSegPrefix_ok {seg : SegmentType} {s : State} (h : s.pos + 1 ≤ s.buf.size) :
    readSegPrefix seg s = .next { s with pos := s.pos + 1, seg := some seg, phase := .start } := by
  rw [readSegPrefix, reading_ok _ h]

theorem readSegPrefix_error {seg : SegmentType} {s : State} (h : ¬ s.pos + 1 ≤ s.buf.size) :
    readSegPrefix seg s = .next (takeError (endOfStreamError s.p0 s.pos) s) := by
  rw [readSegPrefix, reading_error _ h]

/-- `r` is a decode of one of the five shapes, with at most two operands. -/
def IsDecode (s : State) (r : Result) : Prop :=
  ∃ parts type width operands, DecodeParts parts ∧ List.length operands ≤ 2 ∧ r = decodeWith parts type width operands s

theorem decodeShort_isDecode (op : Byte) (type : InstructionType) (width : DataWidth) {operands : List Operand}
    (s : State) (h : operands.length ≤ 2) : IsDecode s (decodeShort op type width operands s) :=
  ⟨_, _, _, _, .short op, h, rfl⟩

theorem decodeImm_isDecode (op : Byte) (i : Imm) (type : InstructionType) (width : DataWidth) {operands : List Operand}
    (s : State) (h : operands.length ≤ 2) : IsDecode s (decodeImm op i type width operands s) :=
  ⟨_, _, _, _, .imm op i, h, rfl⟩

theorem decodeRM_isDecode (op : Byte) (reg : BitVec 3) (e : RM) (type : InstructionType) (width : DataWidth)
    {operands : List Operand} (s : State) (h : operands.length ≤ 2) :
    IsDecode s (decodeRM op reg e type width operands s) :=
  ⟨_, _, _, _, .rm op reg e, h, rfl⟩

theorem decodeRMImm_isDecode (op : Byte) (reg : BitVec 3) (e : RM) (i : Imm) (type : InstructionType)
    (width : DataWidth) {operands : List Operand} (s : State) (h : operands.length ≤ 2) :
    IsDecode s (decodeRMImm op reg e i type width operands s) :=
  ⟨_, _, _, _, .rmImm op reg e i, h, rfl⟩

theorem decodeAlu_isDecode (k : Byte) (slot : BitVec 3) (type : InstructionType) (f : AluForm) (s : State) :
    IsDecode s (decodeAlu k slot type f s) := by
  cases f with
  | eg w e g => exact decodeRM_isDecode _ _ _ _ _ s (le_refl _)
  | ge w g e => exact decodeRM_isDecode _ _ _ _ _ s (le_refl _)
  | accI d => exact decodeImm_isDecode _ _ _ _ s (le_refl _)
  | eI e d => exact decodeRMImm_isDecode _ _ _ _ _ _ s (le_refl _)
  | eI82 e b => exact decodeRMImm_isDecode _ _ _ _ _ _ s (le_refl _)
  | eIs e b => exact decodeRMImm_isDecode _ _ _ _ _ _ s (le_refl _)

theorem decodeIncDec_isDecode (k : Byte) (slot : BitVec 3) (type : InstructionType) (f : IncDecForm) (s : State) :
    IsDecode s (decodeIncDec k slot type f s) := by
  cases f with
  | reg16 r => exact decodeShort_isDecode _ _ _ s (Nat.le_succ 1)
  | rm w e => exact decodeRM_isDecode _ _ _ _ _ s (Nat.le_succ 1)

theorem decodeFar_isDecode (k : Byte) (slot : BitVec 3) (type : InstructionType) (f : FarForm) (s : State) :
    IsDecode s (decodeFar k slot type f s) := by
  cases f with
  | far o g => exact ⟨_, _, _, _, .far _ _ _, le_refl _, rfl⟩
  | mem m => exact decodeRM_isDecode _ _ _ _ _ s (Nat.le_succ 1)

theorem decodeRet_isDecode (k : Byte) (type : InstructionType) (f : RetForm) (s : State) :
    IsDecode s (decodeRet k type f s) := by
  cases f with
  | plain => exact decodeShort_isDecode _ _ _ s (Nat.zero_le 2)
  | adjust n => exact decodeImm_isDecode _ _ _ _ s (Nat.le_succ 1)

theorem execMov_isDecode (f : MovForm) (s : State) : IsDecode s (execMov f s) := by
  cases f with
  | eg w e g => exact decodeRM_isDecode _ _ _ _ _ s (le_refl _)
  | ge w g e => exact decodeRM_isDecode _ _ _ _ _ s (le_refl _)
  | eI e d => exact decodeRMImm_isDecode _ _ _ _ _ _ s (le_refl _)
  | regI r d => exact decodeImm_isDecode _ _ _ _ s (le_refl _)
  | accMoffs w a => exact decodeImm_isDecode _ _ _ _ s (le_refl _)
  | moffsAcc w a => exact decodeImm_isDecode _ _ _ _ s (le_refl _)
  | ewS e r => exact decodeRM_isDecode _ _ _ _ _ s (le_refl _)
  | sEw r e => exact decodeRM_isDecode _ _ _ _ _ s (le_refl _)

theorem execPush_isDecode (f : StackForm) (s : State) : IsDecode s (execPush f s) := by
  cases f with
  | reg16 r => exact decodeShort_isDecode _ _ _ s (Nat.le_succ 1)
  | sreg r => exact decodeShort_isDecode _ _ _ s (Nat.le_succ 1)
  | rm e => exact decodeRM_isDecode _ _ _ _ _ s (Nat.le_succ 1)

theorem execPop_isDecode (f : StackForm) (s : State) : IsDecode s (execPop f s) := by
  cases f with
  | reg16 r => exact decodeShort_isDecode _ _ _ s (Nat.le_succ 1)
  | sreg r => exact decodeShort_isDecode _ _ _ s (Nat.le_succ 1)
  | rm e => exact decodeRM_isDecode _ _ _ _ _ s (Nat.le_succ 1)

theorem execXchg_isDecode (f : XchgForm) (s : State) : IsDecode s (execXchg f s) := by
  cases f with
  | eg w e g => exact decodeRM_isDecode _ _ _ _ _ s (le_refl _)
  | ax r => exact decodeShort_isDecode _ _ _ s (le_refl _)

theorem execInPort_isDecode (f : PortForm) (s : State) : IsDecode s (execInPort f s) := by
  cases f with
  | imm w b => exact decodeImm_isDecode _ _ _ _ s (le_refl _)
  | dx w => exact decodeShort_isDecode _ _ _ s (le_refl _)

theorem execOutPort_isDecode (f : PortForm) (s : State) : IsDecode s (execOutPort f s) := by
  cases f with
  | imm w b => exact decodeImm_isDecode _ _ _ _ s (le_refl _)
  | dx w => exact decodeShort_isDecode _ _ _ s (le_refl _)

theorem execTest_isDecode (f : TestForm) (s : State) : IsDecode s (execTest f s) := by
  cases f with
  | eg w e g => exact decodeRM_isDecode _ _ _ _ _ s (le_refl _)
  | accI d => exact decodeImm_isDecode _ _ _ _ s (le_refl _)
  | eI e d => exact decodeRMImm_isDecode _ _ _ _ _ _ s (le_refl _)

theorem execCall_isDecode (f : CallForm) (s : State) : IsDecode s (execCall f s) := by
  cases f with
  | rel16 d => exact decodeImm_isDecode _ _ _ _ s (Nat.le_succ 1)
  | rm e => exact decodeRM_isDecode _ _ _ _ _ s (Nat.le_succ 1)

theorem execJmp_isDecode (f : JmpForm) (s : State) : IsDecode s (execJmp f s) := by
  cases f with
  | rel8 d => exact decodeImm_isDecode _ _ _ _ s (Nat.le_succ 1)
  | rel16 d => exact decodeImm_isDecode _ _ _ _ s (Nat.le_succ 1)
  | rm e => exact decodeRM_isDecode _ _ _ _ _ s (Nat.le_succ 1)

/-- WHAT `exec` CAN DO: a segment-override prefix byte sets `seg`, and every other instruction is a decode of one of the
five shapes. -/
theorem exec_cases (i : Instr) (s : State) :
    (∃ seg, exec i s = readSegPrefix seg s) ∨ IsDecode s (exec i s) := by
  cases i with
  | prefixES => exact .inl ⟨_, rfl⟩
  | prefixCS => exact .inl ⟨_, rfl⟩
  | prefixSS => exact .inl ⟨_, rfl⟩
  | prefixDS => exact .inl ⟨_, rfl⟩
  | mov f => exact .inr (execMov_isDecode f s)
  | push f => exact .inr (execPush_isDecode f s)
  | pop f => exact .inr (execPop_isDecode f s)
  | xchg f => exact .inr (execXchg_isDecode f s)
  | inPort f => exact .inr (execInPort_isDecode f s)
  | outPort f => exact .inr (execOutPort_isDecode f s)
  | xlat => exact .inr (decodeShort_isDecode _ _ _ s (Nat.zero_le 2))
  | lea g m => exact .inr (decodeRM_isDecode _ _ _ _ _ s (le_refl _))
  | lds g m => exact .inr (decodeRM_isDecode _ _ _ _ _ s (le_refl _))
  | les g m => exact .inr (decodeRM_isDecode _ _ _ _ _ s (le_refl _))
  | lahf => exact .inr (decodeShort_isDecode _ _ _ s (Nat.zero_le 2))
  | sahf => exact .inr (decodeShort_isDecode _ _ _ s (Nat.zero_le 2))
  | pushf => exact .inr (decodeShort_isDecode _ _ _ s (Nat.zero_le 2))
  | popf => exact .inr (decodeShort_isDecode _ _ _ s (Nat.zero_le 2))
  | add f => exact .inr (decodeAlu_isDecode _ _ _ f s)
  | adc f => exact .inr (decodeAlu_isDecode _ _ _ f s)
  | inc f => exact .inr (decodeIncDec_isDecode _ _ _ f s)
  | aaa => exact .inr (decodeShort_isDecode _ _ _ s (Nat.zero_le 2))
  | daa => exact .inr (decodeShort_isDecode _ _ _ s (Nat.zero_le 2))
  | sub f => exact .inr (decodeAlu_isDecode _ _ _ f s)
  | sbb f => exact .inr (decodeAlu_isDecode _ _ _ f s)
  | dec f => exact .inr (decodeIncDec_isDecode _ _ _ f s)
  | neg w e => exact .inr (decodeRM_isDecode _ _ _ _ _ s (Nat.le_succ 1))
  | cmp f => exact .inr (decodeAlu_isDecode _ _ _ f s)
  | aas => exact .inr (decodeShort_isDecode _ _ _ s (Nat.zero_le 2))
  | das => exact .inr (decodeShort_isDecode _ _ _ s (Nat.zero_le 2))
  | mul w e => exact .inr (decodeRM_isDecode _ _ _ _ _ s (Nat.le_succ 1))
  | imul w e => exact .inr (decodeRM_isDecode _ _ _ _ _ s (Nat.le_succ 1))
  | aam => exact .inr (decodeImm_isDecode _ _ _ _ s (Nat.zero_le 2))
  | div w e => exact .inr (decodeRM_isDecode _ _ _ _ _ s (Nat.le_succ 1))
  | idiv w e => exact .inr (decodeRM_isDecode _ _ _ _ _ s (Nat.le_succ 1))
  | aad => exact .inr (decodeImm_isDecode _ _ _ _ s (Nat.zero_le 2))
  | cbw => exact .inr (decodeShort_isDecode _ _ _ s (Nat.zero_le 2))
  | cwd => exact .inr (decodeShort_isDecode _ _ _ s (Nat.zero_le 2))
  | not w e => exact .inr (decodeRM_isDecode _ _ _ _ _ s (Nat.le_succ 1))
  | shl n w e => exact .inr (decodeRM_isDecode _ _ _ _ _ s (le_refl _))
  | shr n w e => exact .inr (decodeRM_isDecode _ _ _ _ _ s (le_refl _))
  | sar n w e => exact .inr (decodeRM_isDecode _ _ _ _ _ s (le_refl _))
  | rol n w e => exact .inr (decodeRM_isDecode _ _ _ _ _ s (le_refl _))
  | ror n w e => exact .inr (decodeRM_isDecode _ _ _ _ _ s (le_refl _))
  | rcl n w e => exact .inr (decodeRM_isDecode _ _ _ _ _ s (le_refl _))
  | rcr n w e => exact .inr (decodeRM_isDecode _ _ _ _ _ s (le_refl _))
  | and f => exact .inr (decodeAlu_isDecode _ _ _ f s)
  | test f => exact .inr (execTest_isDecode f s)
  | or f => exact .inr (decodeAlu_isDecode _ _ _ f s)
  | xor f => exact .inr (decodeAlu_isDecode _ _ _ f s)
  | rep => exact .inr (decodeShort_isDecode _ _ _ s (Nat.zero_le 2))
  | repne => exact .inr (decodeShort_isDecode _ _ _ s (Nat.zero_le 2))
  | movsb => exact .inr (decodeShort_isDecode _ _ _ s (Nat.zero_le 2))
  | movsw => exact .inr (decodeShort_isDecode _ _ _ s (Nat.zero_le 2))
  | cmpsb => exact .inr (decodeShort_isDecode _ _ _ s (Nat.zero_le 2))
  | cmpsw => exact .inr (decodeShort_isDecode _ _ _ s (Nat.zero_le 2))
  | scasb => exact .inr (decodeShort_isDecode _ _ _ s (Nat.zero_le 2))
  | scasw => exact .inr (decodeShort_isDecode _ _ _ s (Nat.zero_le 2))
  | lodsb => exact .inr (decodeShort_isDecode _ _ _ s (Nat.zero_le 2))
  | lodsw => exact .inr (decodeShort_isDecode _ _ _ s (Nat.zero_le 2))
  | stosb => exact .inr (decodeShort_isDecode _ _ _ s (Nat.zero_le 2))
  | stosw => exact .inr (decodeShort_isDecode _ _ _ s (Nat.zero_le 2))
  | call f => exact .inr (execCall_isDecode f s)
  | callf f => exact .inr (decodeFar_isDecode _ _ _ f s)
  | jmp f => exact .inr (execJmp_isDecode f s)
  | jmpf f => exact .inr (decodeFar_isDecode _ _ _ f s)
  | ret f => exact .inr (decodeRet_isDecode _ _ f s)
  | retf f => exact .inr (decodeRet_isDecode _ _ f s)
  | jo d => exact .inr (decodeImm_isDecode _ _ _ _ s (Nat.le_succ 1))
  | jno d => exact .inr (decodeImm_isDecode _ _ _ _ s (Nat.le_succ 1))
  | jb d => exact .inr (decodeImm_isDecode _ _ _ _ s (Nat.le_succ 1))
  | jae d => exact .inr (decodeImm_isDecode _ _ _ _ s (Nat.le_succ 1))
  | je d => exact .inr (decodeImm_isDecode _ _ _ _ s (Nat.le_succ 1))
  | jne d => exact .inr (decodeImm_isDecode _ _ _ _ s (Nat.le_succ 1))
  | jbe d => exact .inr (decodeImm_isDecode _ _ _ _ s (Nat.le_succ 1))
  | ja d => exact .inr (decodeImm_isDecode _ _ _ _ s (Nat.le_succ 1))
  | js d => exact .inr (decodeImm_isDecode _ _ _ _ s (Nat.le_succ 1))
  | jns d => exact .inr (decodeImm_isDecode _ _ _ _ s (Nat.le_succ 1))
  | jp d => exact .inr (decodeImm_isDecode _ _ _ _ s (Nat.le_succ 1))
  | jnp d => exact .inr (decodeImm_isDecode _ _ _ _ s (Nat.le_succ 1))
  | jl d => exact .inr (decodeImm_isDecode _ _ _ _ s (Nat.le_succ 1))
  | jge d => exact .inr (decodeImm_isDecode _ _ _ _ s (Nat.le_succ 1))
  | jle d => exact .inr (decodeImm_isDecode _ _ _ _ s (Nat.le_succ 1))
  | jg d => exact .inr (decodeImm_isDecode _ _ _ _ s (Nat.le_succ 1))
  | loop d => exact .inr (decodeImm_isDecode _ _ _ _ s (Nat.le_succ 1))
  | loopz d => exact .inr (decodeImm_isDecode _ _ _ _ s (Nat.le_succ 1))
  | loopnz d => exact .inr (decodeImm_isDecode _ _ _ _ s (Nat.le_succ 1))
  | jcxz d => exact .inr (decodeImm_isDecode _ _ _ _ s (Nat.le_succ 1))
  | int n => exact .inr (decodeImm_isDecode _ _ _ _ s (Nat.le_succ 1))
  | int3 => exact .inr (decodeShort_isDecode _ _ _ s (Nat.zero_le 2))
  | into => exact .inr (decodeShort_isDecode _ _ _ s (Nat.zero_le 2))
  | iret => exact .inr (decodeShort_isDecode _ _ _ s (Nat.zero_le 2))
  | clc => exact .inr (decodeShort_isDecode _ _ _ s (Nat.zero_le 2))
  | cmc => exact .inr (decodeShort_isDecode _ _ _ s (Nat.zero_le 2))
  | stc => exact .inr (decodeShort_isDecode _ _ _ s (Nat.zero_le 2))
  | cld => exact .inr (decodeShort_isDecode _ _ _ s (Nat.zero_le 2))
  | std => exact .inr (decodeShort_isDecode _ _ _ s (Nat.zero_le 2))
  | cli => exact .inr (decodeShort_isDecode _ _ _ s (Nat.zero_le 2))
  | sti => exact .inr (decodeShort_isDecode _ _ _ s (Nat.zero_le 2))
  | hlt => exact .inr (decodeShort_isDecode _ _ _ s (Nat.zero_le 2))
  | wait => exact .inr (decodeShort_isDecode _ _ _ s (Nat.zero_le 2))
  | esc code e => exact .inr (decodeRM_isDecode _ _ _ _ _ s (le_refl _))
  | lock => exact .inr (decodeShort_isDecode _ _ _ s (Nat.zero_le 2))
  | nop => exact .inr (decodeShort_isDecode _ _ _ s (Nat.zero_le 2))

/-- A meaning always answers a next state. -/
theorem exec_next (i : Instr) (s : State) : ∃ t, exec i s = .next t := by
  rcases exec_cases i s with ⟨seg, h⟩ | ⟨ps, ty, w, os, -, -, h⟩
  · by_cases hp : s.pos + 1 ≤ s.buf.size
    · exact ⟨_, h.trans (readSegPrefix_ok hp)⟩
    · exact ⟨_, h.trans (readSegPrefix_error hp)⟩
  · rcases decodeWith_cases ps ty w os s with ⟨t, -, ht⟩ | ⟨e, t, -, he⟩
    · exact ⟨_, h.trans ht⟩
    · exact ⟨_, h.trans he⟩

end Sys2Proof.Machine
end

