-- ==== Sys2Proof/Laws/PerInstr.lean ====
section
/-! SUPPORT. The per-instruction family EncodedLength: an instruction's encoding has 1 to 6 bytes (30_encoding.md R70,
R116). -/

namespace Sys2Proof.Laws

/-- The encoding's length lies between 1 and 6 bytes. -/
def EncodedLength.Statement (i : Instr) : Prop := 1 ≤ (encode i).length ∧ (encode i).length ≤ 6

theorem rm_bytes_length (reg : BitVec 3) (e : RM) : (e.bytes reg).length ≤ 3 := by
  cases e with
  | reg r => simp [RM.bytes, RM.dispBytes]
  | mem m => cases m <;> simp [RM.bytes, RM.dispBytes, Mem.dispBytes, wordBytes]

theorem data_bytes_length (d : Data) : d.bytes.length ≤ 2 := by
  cases d <;> simp [Data.bytes, wordBytes]

theorem cons_length {l : List Byte} (op : Byte) (h : l.length ≤ 5) : 1 ≤ (op :: l).length ∧ (op :: l).length ≤ 6 :=
  ⟨Nat.succ_le_succ (Nat.zero_le _), Nat.succ_le_succ h⟩

theorem one_length (op : Byte) : 1 ≤ [op].length ∧ [op].length ≤ 6 := cons_length op (Nat.zero_le 5)

theorem two_length (op b : Byte) : 1 ≤ [op, b].length ∧ [op, b].length ≤ 6 :=
  cons_length op (Nat.succ_le_succ (Nat.zero_le 4))

theorem word_length (op : Byte) (v : Word) : 1 ≤ (op :: wordBytes v).length ∧ (op :: wordBytes v).length ≤ 6 :=
  cons_length op (by simp [wordBytes])

theorem data_length (op : Byte) (d : Data) : 1 ≤ (op :: d.bytes).length ∧ (op :: d.bytes).length ≤ 6 :=
  cons_length op ((data_bytes_length d).trans (by decide))

theorem rm_length (op : Byte) (reg : BitVec 3) (e : RM) :
    1 ≤ (op :: e.bytes reg).length ∧ (op :: e.bytes reg).length ≤ 6 :=
  cons_length op ((rm_bytes_length reg e).trans (by decide))

theorem rmData_length (op : Byte) (reg : BitVec 3) (e : RM) (d : Data) :
    1 ≤ (op :: (e.bytes reg ++ d.bytes)).length ∧ (op :: (e.bytes reg ++ d.bytes)).length ≤ 6 :=
  cons_length op (by have := rm_bytes_length reg e; have := data_bytes_length d; rw [List.length_append]; omega)

theorem rmByte_length (op : Byte) (reg : BitVec 3) (e : RM) (b : Byte) :
    1 ≤ (op :: (e.bytes reg ++ [b])).length ∧ (op :: (e.bytes reg ++ [b])).length ≤ 6 :=
  rmData_length op reg e (.byte b)

theorem alu_length (k : Byte) (slot : BitVec 3) : ∀ f : AluForm,
    1 ≤ (f.encode k slot).length ∧ (f.encode k slot).length ≤ 6
  | .eg _ _ _ => rm_length _ _ _
  | .ge _ _ _ => rm_length _ _ _
  | .accI _ => data_length _ _
  | .eI _ _ => rmData_length _ _ _ _
  | .eI82 _ _ => rmByte_length _ _ _ _
  | .eIs _ _ => rmByte_length _ _ _ _

theorem mov_length : ∀ f : MovForm, 1 ≤ f.encode.length ∧ f.encode.length ≤ 6
  | .eg _ _ _ => rm_length _ _ _
  | .ge _ _ _ => rm_length _ _ _
  | .eI _ _ => rmData_length _ _ _ _
  | .regI _ _ => data_length _ _
  | .accMoffs _ _ => word_length _ _
  | .moffsAcc _ _ => word_length _ _
  | .ewS _ _ => rm_length _ _ _
  | .sEw _ _ => rm_length _ _ _

theorem push_length : ∀ f : StackForm, 1 ≤ f.encodePush.length ∧ f.encodePush.length ≤ 6
  | .reg16 _ => one_length _
  | .sreg _ => one_length _
  | .rm _ => rm_length _ _ _

theorem pop_length : ∀ f : StackForm, 1 ≤ f.encodePop.length ∧ f.encodePop.length ≤ 6
  | .reg16 _ => one_length _
  | .sreg _ => one_length _
  | .rm _ => rm_length _ _ _

theorem xchg_length : ∀ f : XchgForm, 1 ≤ f.encode.length ∧ f.encode.length ≤ 6
  | .eg _ _ _ => rm_length _ _ _
  | .ax _ => one_length _

theorem port_length (k kDx : Byte) : ∀ f : PortForm, 1 ≤ (f.encode k kDx).length ∧ (f.encode k kDx).length ≤ 6
  | .imm _ _ => two_length _ _
  | .dx _ => one_length _

theorem incDec_length (k : Byte) (slot : BitVec 3) : ∀ f : IncDecForm,
    1 ≤ (f.encode k slot).length ∧ (f.encode k slot).length ≤ 6
  | .reg16 _ => one_length _
  | .rm _ _ => rm_length _ _ _

theorem test_length : ∀ f : TestForm, 1 ≤ f.encode.length ∧ f.encode.length ≤ 6
  | .eg _ _ _ => rm_length _ _ _
  | .accI _ => data_length _ _
  | .eI _ _ => rmData_length _ _ _ _

theorem call_length : ∀ f : CallForm, 1 ≤ f.encode.length ∧ f.encode.length ≤ 6
  | .rel16 _ => word_length _ _
  | .rm _ => rm_length _ _ _

theorem jmp_length : ∀ f : JmpForm, 1 ≤ f.encode.length ∧ f.encode.length ≤ 6
  | .rel8 _ => two_length _ _
  | .rel16 _ => word_length _ _
  | .rm _ => rm_length _ _ _

theorem far_length (k : Byte) (slot : BitVec 3) : ∀ f : FarForm,
    1 ≤ (f.encode k slot).length ∧ (f.encode k slot).length ≤ 6
  | .far off seg => cons_length _ (by simp [wordBytes])
  | .mem _ => rm_length _ _ _

theorem ret_length (k : Byte) : ∀ f : RetForm, 1 ≤ (f.encode k).length ∧ (f.encode k).length ≤ 6
  | .plain => one_length _
  | .adjust _ => word_length _ _

theorem EncodedLength.prefixES : EncodedLength.Statement (.prefixES) := one_length _

theorem EncodedLength.prefixCS : EncodedLength.Statement (.prefixCS) := one_length _

theorem EncodedLength.prefixSS : EncodedLength.Statement (.prefixSS) := one_length _

theorem EncodedLength.prefixDS : EncodedLength.Statement (.prefixDS) := one_length _

theorem EncodedLength.mov (f : MovForm) : EncodedLength.Statement (.mov f) := mov_length f

theorem EncodedLength.push (f : StackForm) : EncodedLength.Statement (.push f) := push_length f

theorem EncodedLength.pop (f : StackForm) : EncodedLength.Statement (.pop f) := pop_length f

theorem EncodedLength.xchg (f : XchgForm) : EncodedLength.Statement (.xchg f) := xchg_length f

theorem EncodedLength.inPort (f : PortForm) : EncodedLength.Statement (.inPort f) := port_length _ _ f

theorem EncodedLength.outPort (f : PortForm) : EncodedLength.Statement (.outPort f) := port_length _ _ f

theorem EncodedLength.xlat : EncodedLength.Statement (.xlat) := one_length _

theorem EncodedLength.lea (g : BitVec 3) (m : Mem) : EncodedLength.Statement (.lea g m) := rm_length _ _ _

theorem EncodedLength.lds (g : BitVec 3) (m : Mem) : EncodedLength.Statement (.lds g m) := rm_length _ _ _

theorem EncodedLength.les (g : BitVec 3) (m : Mem) : EncodedLength.Statement (.les g m) := rm_length _ _ _

theorem EncodedLength.lahf : EncodedLength.Statement (.lahf) := one_length _

theorem EncodedLength.sahf : EncodedLength.Statement (.sahf) := one_length _

theorem EncodedLength.pushf : EncodedLength.Statement (.pushf) := one_length _

theorem EncodedLength.popf : EncodedLength.Statement (.popf) := one_length _

theorem EncodedLength.add (f : AluForm) : EncodedLength.Statement (.add f) := alu_length _ _ f

theorem EncodedLength.adc (f : AluForm) : EncodedLength.Statement (.adc f) := alu_length _ _ f

theorem EncodedLength.inc (f : IncDecForm) : EncodedLength.Statement (.inc f) := incDec_length _ _ f

theorem EncodedLength.aaa : EncodedLength.Statement (.aaa) := one_length _

theorem EncodedLength.daa : EncodedLength.Statement (.daa) := one_length _

theorem EncodedLength.sub (f : AluForm) : EncodedLength.Statement (.sub f) := alu_length _ _ f

theorem EncodedLength.sbb (f : AluForm) : EncodedLength.Statement (.sbb f) := alu_length _ _ f

theorem EncodedLength.dec (f : IncDecForm) : EncodedLength.Statement (.dec f) := incDec_length _ _ f

theorem EncodedLength.neg (w : OpWidth) (e : RM) : EncodedLength.Statement (.neg w e) := rm_length _ _ _

theorem EncodedLength.cmp (f : AluForm) : EncodedLength.Statement (.cmp f) := alu_length _ _ f

theorem EncodedLength.aas : EncodedLength.Statement (.aas) := one_length _

theorem EncodedLength.das : EncodedLength.Statement (.das) := one_length _

theorem EncodedLength.mul (w : OpWidth) (e : RM) : EncodedLength.Statement (.mul w e) := rm_length _ _ _

theorem EncodedLength.imul (w : OpWidth) (e : RM) : EncodedLength.Statement (.imul w e) := rm_length _ _ _

theorem EncodedLength.aam : EncodedLength.Statement (.aam) := two_length _ _

theorem EncodedLength.div (w : OpWidth) (e : RM) : EncodedLength.Statement (.div w e) := rm_length _ _ _

theorem EncodedLength.idiv (w : OpWidth) (e : RM) : EncodedLength.Statement (.idiv w e) := rm_length _ _ _

theorem EncodedLength.aad : EncodedLength.Statement (.aad) := two_length _ _

theorem EncodedLength.cbw : EncodedLength.Statement (.cbw) := one_length _

theorem EncodedLength.cwd : EncodedLength.Statement (.cwd) := one_length _

theorem EncodedLength.not (w : OpWidth) (e : RM) : EncodedLength.Statement (.not w e) := rm_length _ _ _

theorem EncodedLength.shl (n : ShiftCount) (w : OpWidth) (e : RM) : EncodedLength.Statement (.shl n w e) :=
  rm_length _ _ _

theorem EncodedLength.shr (n : ShiftCount) (w : OpWidth) (e : RM) : EncodedLength.Statement (.shr n w e) :=
  rm_length _ _ _

theorem EncodedLength.sar (n : ShiftCount) (w : OpWidth) (e : RM) : EncodedLength.Statement (.sar n w e) :=
  rm_length _ _ _

theorem EncodedLength.rol (n : ShiftCount) (w : OpWidth) (e : RM) : EncodedLength.Statement (.rol n w e) :=
  rm_length _ _ _

theorem EncodedLength.ror (n : ShiftCount) (w : OpWidth) (e : RM) : EncodedLength.Statement (.ror n w e) :=
  rm_length _ _ _

theorem EncodedLength.rcl (n : ShiftCount) (w : OpWidth) (e : RM) : EncodedLength.Statement (.rcl n w e) :=
  rm_length _ _ _

theorem EncodedLength.rcr (n : ShiftCount) (w : OpWidth) (e : RM) : EncodedLength.Statement (.rcr n w e) :=
  rm_length _ _ _

theorem EncodedLength.and (f : AluForm) : EncodedLength.Statement (.and f) := alu_length _ _ f

theorem EncodedLength.test (f : TestForm) : EncodedLength.Statement (.test f) := test_length f

theorem EncodedLength.or (f : AluForm) : EncodedLength.Statement (.or f) := alu_length _ _ f

theorem EncodedLength.xor (f : AluForm) : EncodedLength.Statement (.xor f) := alu_length _ _ f

theorem EncodedLength.rep : EncodedLength.Statement (.rep) := one_length _

theorem EncodedLength.repne : EncodedLength.Statement (.repne) := one_length _

theorem EncodedLength.movsb : EncodedLength.Statement (.movsb) := one_length _

theorem EncodedLength.movsw : EncodedLength.Statement (.movsw) := one_length _

theorem EncodedLength.cmpsb : EncodedLength.Statement (.cmpsb) := one_length _

theorem EncodedLength.cmpsw : EncodedLength.Statement (.cmpsw) := one_length _

theorem EncodedLength.scasb : EncodedLength.Statement (.scasb) := one_length _

theorem EncodedLength.scasw : EncodedLength.Statement (.scasw) := one_length _

theorem EncodedLength.lodsb : EncodedLength.Statement (.lodsb) := one_length _

theorem EncodedLength.lodsw : EncodedLength.Statement (.lodsw) := one_length _

theorem EncodedLength.stosb : EncodedLength.Statement (.stosb) := one_length _

theorem EncodedLength.stosw : EncodedLength.Statement (.stosw) := one_length _

theorem EncodedLength.call (f : CallForm) : EncodedLength.Statement (.call f) := call_length f

theorem EncodedLength.callf (f : FarForm) : EncodedLength.Statement (.callf f) := far_length _ _ f

theorem EncodedLength.jmp (f : JmpForm) : EncodedLength.Statement (.jmp f) := jmp_length f

theorem EncodedLength.jmpf (f : FarForm) : EncodedLength.Statement (.jmpf f) := far_length _ _ f

theorem EncodedLength.ret (f : RetForm) : EncodedLength.Statement (.ret f) := ret_length _ f

theorem EncodedLength.retf (f : RetForm) : EncodedLength.Statement (.retf f) := ret_length _ f

theorem EncodedLength.jo (d : Byte) : EncodedLength.Statement (.jo d) := two_length _ _

theorem EncodedLength.jno (d : Byte) : EncodedLength.Statement (.jno d) := two_length _ _

theorem EncodedLength.jb (d : Byte) : EncodedLength.Statement (.jb d) := two_length _ _

theorem EncodedLength.jae (d : Byte) : EncodedLength.Statement (.jae d) := two_length _ _

theorem EncodedLength.je (d : Byte) : EncodedLength.Statement (.je d) := two_length _ _

theorem EncodedLength.jne (d : Byte) : EncodedLength.Statement (.jne d) := two_length _ _

theorem EncodedLength.jbe (d : Byte) : EncodedLength.Statement (.jbe d) := two_length _ _

theorem EncodedLength.ja (d : Byte) : EncodedLength.Statement (.ja d) := two_length _ _

theorem EncodedLength.js (d : Byte) : EncodedLength.Statement (.js d) := two_length _ _

theorem EncodedLength.jns (d : Byte) : EncodedLength.Statement (.jns d) := two_length _ _

theorem EncodedLength.jp (d : Byte) : EncodedLength.Statement (.jp d) := two_length _ _

theorem EncodedLength.jnp (d : Byte) : EncodedLength.Statement (.jnp d) := two_length _ _

theorem EncodedLength.jl (d : Byte) : EncodedLength.Statement (.jl d) := two_length _ _

theorem EncodedLength.jge (d : Byte) : EncodedLength.Statement (.jge d) := two_length _ _

theorem EncodedLength.jle (d : Byte) : EncodedLength.Statement (.jle d) := two_length _ _

theorem EncodedLength.jg (d : Byte) : EncodedLength.Statement (.jg d) := two_length _ _

theorem EncodedLength.loop (d : Byte) : EncodedLength.Statement (.loop d) := two_length _ _

theorem EncodedLength.loopz (d : Byte) : EncodedLength.Statement (.loopz d) := two_length _ _

theorem EncodedLength.loopnz (d : Byte) : EncodedLength.Statement (.loopnz d) := two_length _ _

theorem EncodedLength.jcxz (d : Byte) : EncodedLength.Statement (.jcxz d) := two_length _ _

theorem EncodedLength.int (n : Byte) : EncodedLength.Statement (.int n) := two_length _ _

theorem EncodedLength.int3 : EncodedLength.Statement (.int3) := one_length _

theorem EncodedLength.into : EncodedLength.Statement (.into) := one_length _

theorem EncodedLength.iret : EncodedLength.Statement (.iret) := one_length _

theorem EncodedLength.clc : EncodedLength.Statement (.clc) := one_length _

theorem EncodedLength.cmc : EncodedLength.Statement (.cmc) := one_length _

theorem EncodedLength.stc : EncodedLength.Statement (.stc) := one_length _

theorem EncodedLength.cld : EncodedLength.Statement (.cld) := one_length _

theorem EncodedLength.std : EncodedLength.Statement (.std) := one_length _

theorem EncodedLength.cli : EncodedLength.Statement (.cli) := one_length _

theorem EncodedLength.sti : EncodedLength.Statement (.sti) := one_length _

theorem EncodedLength.hlt : EncodedLength.Statement (.hlt) := one_length _

theorem EncodedLength.wait : EncodedLength.Statement (.wait) := one_length _

theorem EncodedLength.esc (code : BitVec 6) (e : RM) : EncodedLength.Statement (.esc code e) := rm_length _ _ _

theorem EncodedLength.lock : EncodedLength.Statement (.lock) := one_length _

theorem EncodedLength.nop : EncodedLength.Statement (.nop) := one_length _

end Sys2Proof.Laws
end

