-- ==== Sys2Proof/Laws/Shapes.lean ====
section
/-! SUPPORT. The phases that each shape of a decode passes, and that with room for its bytes it completes: one lemma per
shared shape, which a proof about a meaning cites instead of unfolding the parts. -/

namespace Sys2Proof.Machine

/-! ### The phases that the parts pass -/

/-- A part passes one of the phase lists `oks` where it succeeds and one of `fails` where it fails. -/
def Part.Passes (p : Part) (oks fails : List (List Phase)) : Prop :=
  ∀ s, (∃ t, p s = .ok t ∧ ∃ w ∈ oks, t.trail = s.trail ++ w) ∨
    ∃ e t, p s = .error (e, t) ∧ ∃ w ∈ fails, t.trail = s.trail ++ w

theorem reading_passes {n : Nat} {next : State → Nat → State} {oks : List (List Phase)} {w : List Phase}
    (before : List Phase) (hw : w ∈ oks) (h : ∀ s pos, (next s pos).trail = s.trail ++ w) :
    Part.Passes (fun s => reading n (s.through before) (next s)) oks [before] := by
  intro s
  by_cases hr : s.pos + n ≤ s.buf.size
  · exact .inl ⟨_, reading_ok (s := s.through before) _ hr, w, hw, h s _⟩
  · exact .inr ⟨_, _, reading_error (s := s.through before) _ hr, before, List.mem_singleton_self _, rfl⟩

theorem reading_passes_nil {n : Nat} {next : State → Nat → State} {oks : List (List Phase)} {w : List Phase}
    (hw : w ∈ oks) (h : ∀ s pos, (next s pos).trail = s.trail ++ w) :
    Part.Passes (fun s => reading n s (next s)) oks [[]] := by
  simpa only [through_nil] using reading_passes [] hw h

theorem opcodeRead_passes (op : Byte) : Part.Passes (opcodeRead op) [[.opcodeRead]] [[]] :=
  reading_passes_nil (List.mem_singleton_self _) fun _ _ => rfl

theorem modrmRead_passes (reg : BitVec 3) (e : RM) : Part.Passes (modrmRead reg e) [[.modrmRead]] [[]] :=
  reading_passes_nil (List.mem_singleton_self _) fun _ _ => rfl

theorem displacementField_passes (n : Nat) (d : Disp) :
    Part.Passes (displacementField n d) [[], [.displacementRead]] [[]] :=
  reading_passes_nil (w := [.displacementRead]) (by decide) fun _ _ => rfl

theorem displacementRead_passes (e : RM) : Part.Passes (displacementRead e) [[], [.displacementRead]] [[]] := by
  cases e with
  | reg r => exact fun s => .inl ⟨s, rfl, [], by decide, (List.append_nil _).symm⟩
  | mem m =>
    cases m with
    | direct a => exact displacementField_passes 2 _
    | noDisp r => exact fun s => .inl ⟨_, rfl, [], by decide, (List.append_nil _).symm⟩
    | disp8 r b => exact displacementField_passes 1 _
    | disp16 r v => exact displacementField_passes 2 _

theorem imm1Read_passes (i : Imm) : Part.Passes (imm1Read i) [[.immediateRead]] [[.immediateRead]] :=
  reading_passes _ (List.mem_singleton_self _) fun _ _ => rfl

theorem imm2Read_passes (i : Imm) : Part.Passes (imm2Read i) [[]] [[]] :=
  reading_passes_nil (List.mem_singleton_self _) fun _ _ => (List.append_nil _).symm

/-- One part after another: the lists of the first, each followed by one of the rest's. -/
def andThen (vs ws : List (List Phase)) : List (List Phase) := vs.flatMap fun v => ws.map (v ++ ·)

theorem mem_andThen {v w : List Phase} {vs ws : List (List Phase)} (hv : v ∈ vs) (hw : w ∈ ws) :
    v ++ w ∈ andThen vs ws :=
  List.mem_flatMap.mpr ⟨v, hv, List.mem_map.mpr ⟨w, hw, rfl⟩⟩

theorem runParts_nil_passes : Part.Passes (runParts []) [[]] [] :=
  fun s => .inl ⟨s, rfl, [], List.mem_singleton_self _, (List.append_nil _).symm⟩

theorem runParts_cons_passes {p : Part} {ps : List Part} {a b c d : List (List Phase)} (hp : Part.Passes p a b)
    (hps : Part.Passes (runParts ps) c d) : Part.Passes (runParts (p :: ps)) (andThen a c) (b ++ andThen a d) := by
  intro s
  rcases hp s with ⟨t, ht, v, hv, htv⟩ | ⟨e, t, he, v, hv, htv⟩
  · rcases hps t with ⟨u, hu, w, hw, huw⟩ | ⟨e, u, he, w, hw, huw⟩
    · exact .inl ⟨u, by rw [runParts_cons_ok ht, hu], v ++ w, mem_andThen hv hw, by rw [huw, htv, List.append_assoc]⟩
    · exact .inr ⟨e, u, by rw [runParts_cons_ok ht, he], v ++ w, List.mem_append_right _ (mem_andThen hv hw),
        by rw [huw, htv, List.append_assoc]⟩
  · exact .inr ⟨e, t, runParts_cons_error he, v, List.mem_append_left _ hv, htv⟩

theorem Part.Passes.mono {p : Part} {a b c d : List (List Phase)} (h : Part.Passes p a b) (hac : ∀ w ∈ a, w ∈ c)
    (hbd : ∀ w ∈ b, w ∈ d) : Part.Passes p c d := by
  intro s
  rcases h s with ⟨t, ht, w, hw, htw⟩ | ⟨e, t, he, w, hw, htw⟩
  · exact .inl ⟨t, ht, w, hac w hw, htw⟩
  · exact .inr ⟨e, t, he, w, hbd w hw, htw⟩

/-- The phases that a call that reads all its fields passes between Start and Complete (10_state.md R23). -/
def readPhases : List (List Phase) :=
  [[.opcodeRead], [.opcodeRead, .immediateRead], [.opcodeRead, .modrmRead], [.opcodeRead, .modrmRead, .immediateRead],
   [.opcodeRead, .modrmRead, .displacementRead], [.opcodeRead, .modrmRead, .displacementRead, .immediateRead]]

theorem readPhases_completed {w : List Phase} (h : w ∈ readPhases) : .start :: (w ++ [.complete]) ∈ completedTrails := by
  have all : ∀ w ∈ readPhases, .start :: (w ++ [.complete]) ∈ completedTrails := by decide
  exact all w h

/-- THE PHASES OF A DECODE (10_state.md R23): each of the five shapes passes the spec's phases in order, and where it
fails, one of the phase sequences of a failing call. -/
theorem DecodeParts.passes {ps : List Part} (h : DecodeParts ps) :
    Part.Passes (runParts ps) readPhases (failedTrails.map List.tail) := by
  cases h with
  | short op =>
    exact (runParts_cons_passes (opcodeRead_passes op) runParts_nil_passes).mono (by decide) (by decide)
  | imm op i =>
    exact (runParts_cons_passes (opcodeRead_passes op)
      (runParts_cons_passes (imm1Read_passes i) runParts_nil_passes)).mono (by decide) (by decide)
  | far op i j =>
    exact (runParts_cons_passes (opcodeRead_passes op) (runParts_cons_passes (imm1Read_passes i)
      (runParts_cons_passes (imm2Read_passes j) runParts_nil_passes))).mono (by decide) (by decide)
  | rm op reg e =>
    exact (runParts_cons_passes (opcodeRead_passes op) (runParts_cons_passes (modrmRead_passes reg e)
      (runParts_cons_passes (displacementRead_passes e) runParts_nil_passes))).mono (by decide) (by decide)
  | rmImm op reg e i =>
    exact (runParts_cons_passes (opcodeRead_passes op) (runParts_cons_passes (modrmRead_passes reg e)
      (runParts_cons_passes (displacementRead_passes e)
        (runParts_cons_passes (imm1Read_passes i) runParts_nil_passes)))).mono (by decide) (by decide)

/-- WHAT A DECODE DOES: it reads all its fields and completes, or takes the end of the stream in the phase it has
reached. -/
theorem decodeWith_outcome {parts : List Part} (h : DecodeParts parts) (type : InstructionType) (width : DataWidth)
    (operands : List Operand) (s : State) :
    (∃ t, runParts parts s = .ok t ∧ Keeps s t ∧ (∃ w ∈ readPhases, t.trail = s.trail ++ w) ∧
      decodeWith parts type width operands s = .next (complete type width operands t)) ∨
    ∃ e w, EndsStream s e ∧ .start :: w ∈ failedTrails ∧
      decodeWith parts type width operands s = .next (takeError e (s.through w)) := by
  have tails : ∀ w ∈ failedTrails.map List.tail, .start :: w ∈ failedTrails := by decide
  rcases h.reads s with ⟨t, ht, hk⟩ | ⟨e, t, he, hs, hk⟩ <;> rcases h.passes s with ⟨u, hu, hw⟩ | ⟨f, u, hf, w, hw, htw⟩
  · cases ht.symm.trans hu
    exact .inl ⟨t, ht, hk, hw, by simp only [decodeWith, ht]⟩
  · cases ht.symm.trans hf
  · cases he.symm.trans hu
  · cases he.symm.trans hf
    exact .inr ⟨e, w, hs, tails w hw, by simp only [decodeWith, he, hk.takeError_eq e htw]⟩

/-! ### Completing -/

/-- Parts that end in a state with these fields complete the call so. -/
theorem completesWith_of_runParts {parts : List Part} {s t : State} {n : Nat} {op : Byte} {type : InstructionType}
    {width : DataWidth} {operands : List Operand} (h : runParts parts s = .ok t) (hp : t.pos = s.pos + n)
    (h0 : t.p0 = s.p0) (ho : t.op = op) (hf : t.opOffset = s.pos) (he : t.entry = primary op) :
    completesWith s n op type width operands (decodeWith parts type width operands s) := by
  refine ⟨complete type width operands t, ?_, rfl, hp, ho, hf, he, ?_⟩
  · simp only [decodeWith, h]
  · simp only [complete, ho, hp, h0]

/-- What the displacement of an r/m operand adds to the cursor (30_encoding.md R75, R77). -/
def dispLength (e : RM) : Nat := rmLength e - 2

theorem rmLength_eq (e : RM) : rmLength e = 2 + dispLength e := by
  cases e with
  | reg r => rfl
  | mem m => cases m <;> rfl

theorem displacementRead_ok {e : RM} {s : State} (h : s.pos + dispLength e ≤ s.buf.size) :
    ∃ t, displacementRead e s = .ok t ∧ t.pos = s.pos + dispLength e ∧ Keeps s t ∧ t.op = s.op ∧
      t.opOffset = s.opOffset ∧ t.entry = s.entry := by
  have keeps : ∀ (n : Nat) (d : Disp), s.pos + n ≤ s.buf.size → ∃ t, displacementField n d s = .ok t ∧
      t.pos = s.pos + n ∧ Keeps s t ∧ t.op = s.op ∧ t.opOffset = s.opOffset ∧ t.entry = s.entry := fun n d hn =>
    ⟨_, displacementField_ok hn, rfl,
      ⟨rfl, rfl, rfl, rfl, rfl, rfl, rfl, rfl, rfl, Nat.le_add_right .., fun _ => hn, _, rfl⟩, rfl, rfl, rfl⟩
  cases e with
  | reg r => exact ⟨s, rfl, rfl, .refl s, rfl, rfl, rfl⟩
  | mem m =>
    cases m with
    | direct a => exact keeps 2 _ h
    | noDisp r => exact ⟨_, rfl, rfl, ⟨rfl, rfl, rfl, rfl, rfl, rfl, rfl, rfl, rfl, le_refl _, id, [], (List.append_nil _).symm⟩,
        rfl, rfl, rfl⟩
    | disp8 r b => exact keeps 1 _ h
    | disp16 r v => exact keeps 2 _ h

theorem decodeShort_completes {s : State} (op : Byte) (type : InstructionType) (width : DataWidth)
    (operands : List Operand) (h : s.pos + 1 ≤ s.buf.size) :
    completesWith s 1 op type width operands (decodeShort op type width operands s) :=
  completesWith_of_runParts (runParts_cons_ok (opcodeRead_ok h)) rfl rfl rfl rfl rfl

theorem decodeImm_completes {s : State} (op : Byte) (i : Imm) (type : InstructionType) (width : DataWidth)
    (operands : List Operand) (h : s.pos + (1 + i.size) ≤ s.buf.size) :
    completesWith s (1 + i.size) op type width operands (decodeImm op i type width operands s) := by
  have h1 : s.pos + 1 ≤ s.buf.size := by omega
  refine completesWith_of_runParts ((runParts_cons_ok (opcodeRead_ok h1)).trans (runParts_cons_ok (imm1Read_ok ?_)))
    ?_ rfl rfl rfl rfl
  · show s.pos + 1 + i.size ≤ s.buf.size; omega
  · show s.pos + 1 + i.size = s.pos + (1 + i.size); omega

theorem decodeRM_completes {s : State} (op : Byte) (reg : BitVec 3) (e : RM) (type : InstructionType)
    (width : DataWidth) (operands : List Operand) (h : s.pos + rmLength e ≤ s.buf.size) :
    completesWith s (rmLength e) op type width operands (decodeRM op reg e type width operands s) := by
  rw [rmLength_eq] at h
  have h1 : s.pos + 1 ≤ s.buf.size := by omega
  let a : State := s.withOpcode op
  have h2 : a.pos + 1 ≤ a.buf.size := by show s.pos + 1 + 1 ≤ s.buf.size; omega
  let b : State := a.withModrm reg e
  have h3 : b.pos + dispLength e ≤ b.buf.size := by
    show s.pos + 1 + 1 + dispLength e ≤ s.buf.size; omega
  obtain ⟨t, ht, hp, hk, ho, hf, he⟩ := displacementRead_ok h3
  refine completesWith_of_runParts (t := t) ((runParts_cons_ok (opcodeRead_ok h1)).trans
    ((runParts_cons_ok (modrmRead_ok h2)).trans (runParts_cons_ok ht))) ?_ hk.p0 ho hf he
  rw [hp, rmLength_eq]; show s.pos + 1 + 1 + dispLength e = s.pos + (2 + dispLength e); omega

theorem decodeRMImm_completes {s : State} (op : Byte) (reg : BitVec 3) (e : RM) (i : Imm) (type : InstructionType)
    (width : DataWidth) (operands : List Operand) (h : s.pos + (rmLength e + i.size) ≤ s.buf.size) :
    completesWith s (rmLength e + i.size) op type width operands (decodeRMImm op reg e i type width operands s) := by
  rw [rmLength_eq] at h
  have h1 : s.pos + 1 ≤ s.buf.size := by omega
  let a : State := s.withOpcode op
  have h2 : a.pos + 1 ≤ a.buf.size := by show s.pos + 1 + 1 ≤ s.buf.size; omega
  let b : State := a.withModrm reg e
  have h3 : b.pos + dispLength e ≤ b.buf.size := by
    show s.pos + 1 + 1 + dispLength e ≤ s.buf.size; omega
  obtain ⟨t, ht, hp, hk, ho, hf, he⟩ := displacementRead_ok h3
  have hp' : t.pos = s.pos + 1 + 1 + dispLength e := hp
  have h4 : t.pos + i.size ≤ t.buf.size := by rw [hk.buf, hp']; show _ ≤ s.buf.size; omega
  refine completesWith_of_runParts (t := t.withImm1 i)
    ((runParts_cons_ok (opcodeRead_ok h1)).trans
    ((runParts_cons_ok (modrmRead_ok h2)).trans ((runParts_cons_ok ht).trans (runParts_cons_ok (imm1Read_ok h4)))))
    ?_ hk.p0 ho hf he
  show t.pos + i.size = _
  rw [hp', rmLength_eq]; omega

theorem decodeFarPointer_completes {s : State} (op : Byte) (i j : Imm) (type : InstructionType) (width : DataWidth)
    (operands : List Operand) (h : s.pos + (1 + i.size + j.size) ≤ s.buf.size) :
    completesWith s (1 + i.size + j.size) op type width operands
      (decodeWith [opcodeRead op, imm1Read i, imm2Read j] type width operands s) := by
  have h1 : s.pos + 1 ≤ s.buf.size := by omega
  refine completesWith_of_runParts ((runParts_cons_ok (opcodeRead_ok h1)).trans
    ((runParts_cons_ok (imm1Read_ok ?_)).trans (runParts_cons_ok (imm2Read_ok ?_)))) ?_ rfl rfl rfl rfl
  · show s.pos + 1 + i.size ≤ s.buf.size; omega
  · show s.pos + 1 + i.size + j.size ≤ s.buf.size; omega
  · show s.pos + 1 + i.size + j.size = s.pos + (1 + i.size + j.size); omega

end Sys2Proof.Machine
end

