-- ==== Sys2Proof/Tests/Slice0.lean ====
section
/-! SUPPORT. Small tests by evaluation: ill-formed terms refused, every constructor's word written out from the encodings of
30_encoding.md R113 and R114, worked examples of the spec, and for every obligation with hypotheses a witness that meets
them. Expected values are the spec's (the rule or vector is named), never the model's own answers. -/

namespace Sys2Proof.Tests

set_option Elab.async false

open Sys2Proof Sys2Proof.Machine

/-! ### Well-formedness: each check refuses an ill-formed term -/

theorem test_wf_noDisp6 : (Mem.noDisp 6).wellFormed = false := by decide
theorem test_wf_xchg_ax_ax : (Instr.xchg (.ax 0)).wellFormed = false := by decide
theorem test_wf_pop_cs : (Instr.pop (.sreg .CS)).wellFormed = false := by decide
theorem test_wf_mov_to_cs : (Instr.mov (.sEw .CS (.reg 0))).wellFormed = false := by decide
theorem test_wf_inside_forms :
    [Instr.add (.eI (.mem (.noDisp 6)) (.byte 1)), .mov (.eI (.mem (.noDisp 6)) (.byte 1)), .push (.rm (.mem (.noDisp 6))),
     .xchg (.eg .byte (.mem (.noDisp 6)) 0), .inc (.rm .byte (.mem (.noDisp 6))), .test (.eI (.mem (.noDisp 6)) (.byte 1)),
     .call (.rm (.mem (.noDisp 6))), .jmp (.rm (.mem (.noDisp 6))), .callf (.mem (.noDisp 6)), .lea 0 (.noDisp 6),
     .shl .one .byte (.mem (.noDisp 6)), .mul .word (.mem (.noDisp 6)), .esc 1 (.mem (.noDisp 6))].all
      (fun i => !i.wellFormed) = true := by decide
theorem test_wf_accepts :
    [Instr.push (.sreg .CS), .mov (.ewS (.reg 0) .CS), .xchg (.ax 1), .mov (.sEw .SS (.mem (.direct 6)))].all
      Instr.wellFormed = true := by decide

/-! ### Decoding: the words of R113 and R114, at least one for every constructor and every form -/

/-- The bytes decode to exactly this instruction, and it encodes back to them. -/
def reads (p : List Byte × Instr) : Bool :=
  (match decode p.1 with
   | .ok (i, rest) => i == p.2 && rest.isEmpty
   | .error _ => false) && encode p.2 == p.1

theorem test_decode_prefixes :
    [([0b00100110#8], Instr.prefixES), ([0b00101110], .prefixCS), ([0b00110110], .prefixSS), ([0b00111110], .prefixDS)].all
      reads = true := by decide

theorem test_decode_mov :
    [([0x88#8, 0b01000111, 0x80], Instr.mov (.eg .byte (.mem (.disp8 7 0x80)) 0)),
     ([0x89, 0b11011000], .mov (.eg .word (.reg 0) 3)),
     ([0x8A, 0b00000110, 0x34, 0x12], .mov (.ge .byte 0 (.mem (.direct 0x1234)))),
     ([0x8B, 0b10000110, 0x34, 0x12], .mov (.ge .word 0 (.mem (.disp16 6 0x1234)))),
     ([0xC6, 0b00000111, 0x05], .mov (.eI (.mem (.noDisp 7)) (.byte 5))),
     ([0xC7, 0b01000110, 0x01, 0x34, 0x12], .mov (.eI (.mem (.disp8 6 1)) (.word 0x1234))),
     ([0b10110011, 0xFF], .mov (.regI 3 (.byte 0xFF))),
     ([0b10111100, 0xCD, 0xAB], .mov (.regI 4 (.word 0xABCD))),
     ([0xA0, 0x01, 0x02], .mov (.accMoffs .byte 0x0201)), ([0xA1, 0xFF, 0xFF], .mov (.accMoffs .word 0xFFFF)),
     ([0xA2, 0x01, 0x02], .mov (.moffsAcc .byte 0x0201)), ([0xA3, 0x01, 0x02], .mov (.moffsAcc .word 0x0201)),
     ([0x8C, 0b11001000], .mov (.ewS (.reg 0) .CS)), ([0x8E, 0b11010011], .mov (.sEw .SS (.reg 3)))].all reads = true := by
  decide

theorem test_decode_stack_exchange :
    [([0b01010011#8], Instr.push (.reg16 3)), ([0b00001110], .push (.sreg .CS)), ([0b00011110], .push (.sreg .DS)),
     ([0xFF, 0b00110111], .push (.rm (.mem (.noDisp 7)))), ([0b01011111], .pop (.reg16 7)), ([0b00000111], .pop (.sreg .ES)),
     ([0b00010111], .pop (.sreg .SS)), ([0x8F, 0b11000010], .pop (.rm (.reg 2))), ([0x86, 0b11001000], .xchg (.eg .byte (.reg 0) 1)),
     ([0x87, 0b00000001], .xchg (.eg .word (.mem (.noDisp 1)) 0)), ([0b10010111], .xchg (.ax 7))].all reads = true := by decide

theorem test_decode_data_transfer :
    [([0xE4#8, 0x80], Instr.inPort (.imm .byte 0x80)), ([0xE5, 0x01], .inPort (.imm .word 1)), ([0xEC], .inPort (.dx .byte)),
     ([0xED], .inPort (.dx .word)), ([0xE6, 0x80], .outPort (.imm .byte 0x80)), ([0xE7, 0x01], .outPort (.imm .word 1)),
     ([0xEE], .outPort (.dx .byte)), ([0xEF], .outPort (.dx .word)), ([0xD7], .xlat),
     ([0x8D, 0b01000000, 0x0A], .lea 0 (.disp8 0 0x0A)), ([0xC5, 0b00011100], .lds 3 (.noDisp 4)),
     ([0xC4, 0b00111110, 0x00, 0x20], .les 7 (.direct 0x2000)), ([0x9F], .lahf), ([0x9E], .sahf), ([0x9C], .pushf),
     ([0x9D], .popf)].all reads = true := by decide

theorem test_decode_alu :
    [([0x00#8, 0b11011000], Instr.add (.eg .byte (.reg 0) 3)), ([0x01, 0b00001000], .add (.eg .word (.mem (.noDisp 0)) 1)),
     ([0x02, 0b11000011], .add (.ge .byte 0 (.reg 3))), ([0x03, 0b11000011], .add (.ge .word 0 (.reg 3))),
     ([0x04, 0x2A], .add (.accI (.byte 0x2A))), ([0x05, 0x03, 0xF0], .add (.accI (.word 0xF003))),
     ([0x80, 0b11000001, 0x01], .add (.eI (.reg 1) (.byte 1))), ([0x81, 0b11000001, 0x01, 0x02], .add (.eI (.reg 1) (.word 0x0201))),
     ([0x82, 0b11000000, 0xFF], .add (.eI82 (.reg 0) 0xFF)), ([0x83, 0b11000110, 0xFE], .add (.eIs (.reg 6) 0xFE)),
     ([0x83, 0b11010001, 0x05], .adc (.eIs (.reg 1) 5)), ([0x10, 0b01001110, 0x00], .adc (.eg .byte (.mem (.disp8 6 0)) 1)),
     ([0x08, 0b11000001], .or (.eg .byte (.reg 1) 0)), ([0x81, 0b11001000, 0x01, 0x00], .or (.eI (.reg 0) (.word 1))),
     ([0x1B, 0b11000001], .sbb (.ge .word 0 (.reg 1))), ([0x80, 0b11011000, 0x01], .sbb (.eI (.reg 0) (.byte 1))),
     ([0x24, 0x0F], .and (.accI (.byte 0x0F))), ([0x82, 0b11100000, 0x01], .and (.eI82 (.reg 0) 1)),
     ([0x2D, 0x01, 0x00], .sub (.accI (.word 1))), ([0x83, 0b00101111, 0x01], .sub (.eIs (.mem (.noDisp 7)) 1)),
     ([0x33, 0b11000000], .xor (.ge .word 0 (.reg 0))), ([0x83, 0b11110000, 0x01], .xor (.eIs (.reg 0) 1)),
     ([0x39, 0b11000001], .cmp (.eg .word (.reg 1) 0)), ([0x80, 0b11111000, 0x01], .cmp (.eI (.reg 0) (.byte 1)))].all
      reads = true := by decide

theorem test_decode_arithmetic :
    [([0b01000001#8], Instr.inc (.reg16 1)), ([0xFE, 0b01000111, 0x05], .inc (.rm .byte (.mem (.disp8 7 5)))),
     ([0b01001110], .dec (.reg16 6)), ([0xFF, 0b11001000], .dec (.rm .word (.reg 0))), ([0x37], .aaa), ([0x27], .daa),
     ([0x3F], .aas), ([0x2F], .das), ([0xF6, 0b11011000], .neg .byte (.reg 0)), ([0xF7, 0b11100011], .mul .word (.reg 3)),
     ([0xF6, 0b11101001], .imul .byte (.reg 1)), ([0xF7, 0b11110000], .div .word (.reg 0)),
     ([0xF7, 0b00111111], .idiv .word (.mem (.noDisp 7))), ([0xD4, 0x0A], .aam), ([0xD5, 0x0A], .aad), ([0x98], .cbw),
     ([0x99], .cwd)].all reads = true := by decide

theorem test_decode_logic :
    [([0xF6#8, 0b11010000], Instr.not .byte (.reg 0)), ([0xD0, 0b11000000], .rol .one .byte (.reg 0)),
     ([0xD1, 0b11001001], .ror .one .word (.reg 1)), ([0xD2, 0b11010010], .rcl .cl .byte (.reg 2)),
     ([0xD3, 0b11011011], .rcr .cl .word (.reg 3)), ([0xD1, 0b11100011], .shl .one .word (.reg 3)),
     ([0xD3, 0b00101111], .shr .cl .word (.mem (.noDisp 7))), ([0xD0, 0b11111101], .sar .one .byte (.reg 5)),
     ([0x84, 0b11000001], .test (.eg .byte (.reg 1) 0)), ([0xA8, 0x01], .test (.accI (.byte 1))),
     ([0xA9, 0x01, 0x02], .test (.accI (.word 0x0201))), ([0xF6, 0b11000000, 0x01], .test (.eI (.reg 0) (.byte 1))),
     ([0xF7, 0b01000100, 0x02, 0x34, 0x12], .test (.eI (.mem (.disp8 4 2)) (.word 0x1234)))].all reads = true := by decide

theorem test_decode_strings :
    [([0xF3#8], Instr.rep), ([0xF2], .repne), ([0xA4], .movsb), ([0xA5], .movsw), ([0xA6], .cmpsb), ([0xA7], .cmpsw),
     ([0xAE], .scasb), ([0xAF], .scasw), ([0xAC], .lodsb), ([0xAD], .lodsw), ([0xAA], .stosb), ([0xAB], .stosw)].all
      reads = true := by decide

theorem test_decode_jumps :
    [([0b01110000#8, 0x01], Instr.jo 1), ([0b01110001, 0x02], .jno 2), ([0b01110010, 0x03], .jb 3), ([0b01110011, 0x04], .jae 4),
     ([0b01110100, 0x05], .je 5), ([0b01110101, 0x06], .jne 6), ([0b01110110, 0x07], .jbe 7), ([0b01110111, 0x08], .ja 8),
     ([0b01111000, 0x09], .js 9), ([0b01111001, 0x0A], .jns 10), ([0b01111010, 0x0B], .jp 11), ([0b01111011, 0x0C], .jnp 12),
     ([0b01111100, 0x0D], .jl 13), ([0b01111101, 0xEC], .jge 0xEC), ([0b01111110, 0x0F], .jle 15), ([0b01111111, 0x10], .jg 16),
     ([0xE2, 0x80], .loop 0x80), ([0xE1, 0x81], .loopz 0x81), ([0xE0, 0x82], .loopnz 0x82), ([0xE3, 0x83], .jcxz 0x83)].all
      reads = true := by decide

theorem test_decode_transfers :
    [([0xE8#8, 0x00, 0x10], Instr.call (.rel16 0x1000)), ([0xFF, 0b11010011], .call (.rm (.reg 3))),
     ([0x9A, 0x00, 0x10, 0x00, 0xF0], .callf (.far 0x1000 0xF000)), ([0xFF, 0b00011111], .callf (.mem (.noDisp 7))),
     ([0xEB, 0xFE], .jmp (.rel8 0xFE)), ([0xE9, 0xFD, 0xFF], .jmp (.rel16 0xFFFD)), ([0xFF, 0b00100111], .jmp (.rm (.mem (.noDisp 7)))),
     ([0xEA, 0x01, 0x02, 0x03, 0x04], .jmpf (.far 0x0201 0x0403)), ([0xFF, 0b00101111], .jmpf (.mem (.noDisp 7))),
     ([0xC2, 0x04, 0x00], .ret (.adjust 4)), ([0xC3], .ret .plain), ([0xCA, 0x04, 0x00], .retf (.adjust 4)), ([0xCB], .retf .plain),
     ([0xCD, 0x21], .int 0x21), ([0xCC], .int3), ([0xCE], .into), ([0xCF], .iret)].all reads = true := by decide

theorem test_decode_processor :
    [([0xF8#8], Instr.clc), ([0xF5], .cmc), ([0xF9], .stc), ([0xFC], .cld), ([0xFD], .std), ([0xFA], .cli), ([0xFB], .sti),
     ([0xF4], .hlt), ([0x9B], .wait), ([0xDF, 0b00000111], .esc 56 (.mem (.noDisp 7))), ([0xD9, 0b11101000], .esc 13 (.reg 0)),
     ([0xF0], .lock), ([0x90], .nop)].all reads = true := by decide

/-- Two-byte words of opcode_table.json hold the opcode at bits 15:8; D4 with a zero second byte is refused (R112). -/
theorem test_table_words :
    decodeTableWord 8 0x27 = some .daa ∧ decodeTableWord 16 0xF6D8 = some (.neg .byte (.reg 0)) ∧
      decodeTableWord 16 0x8006 = some (.add (.eI (.mem (.direct 0)) (.byte 0))) ∧ decodeTableWord 8 0xD4 = none := by decide

/-! ### Worked examples of the spec, one step each -/

/-- A `DecodeNext` call on a buffer at offset 0. -/
def callOn (bs : List Byte) : State := State.ofCall .decodeNext (Memory.ofBytes bs) 0 "" .asInteger

/-- What the first step of `DecodeNext` leaves in the result port. -/
def stepResult (s : State) : Option (CallResult Instruction) :=
  match step s with
  | .next t => t.result
  | .fault _ => none
  | .refused _ => none

/-- `00 D8`: ADD (AL, BL) (90_conflicts.md C1; 41_arithmetic.md R150). -/
theorem test_step_add : stepResult (callOn [0x00, 0xD8]) =
    some (.ok ⟨0x00, 2, .ADD, .byte, [.register .AL, .register .BL]⟩) := by decide

/-- `02 C3` gives the same operands (C1). -/
theorem test_step_add_direction : stepResult (callOn [0x02, 0xC3]) =
    some (.ok ⟨0x02, 2, .ADD, .byte, [.register .AL, .register .BL]⟩) := by decide

/-- `83 C6 FE`: the imm8 is sign-extended (R81). -/
theorem test_step_add_sign_extends : stepResult (callOn [0x83, 0xC6, 0xFE]) =
    some (.ok ⟨0x83, 3, .ADD, .word, [.register .SI, .immediate (.word 0xFFFE .none)]⟩) := by decide

/-- `82 C0 FF`: the imm8 of 82 stays a byte (R81, R92). -/
theorem test_step_add_82 : stepResult (callOn [0x82, 0xC0, 0xFF]) =
    some (.ok ⟨0x82, 3, .ADD, .byte, [.register .AL, .immediate (.byte 0xFF .none)]⟩) := by decide

/-- `FE 47 05`: INC BYTE [BX + 5] (R152). -/
theorem test_step_inc : stepResult (callOn [0xFE, 0x47, 0x05]) =
    some (.ok ⟨0xFE, 3, .INC, .byte, [.memory ⟨.BX, .disp8 5, none⟩]⟩) := by decide

/-- `9A 00 10 00 F0`: the segment is the first operand (R84). -/
theorem test_step_callf : stepResult (callOn [0x9A, 0x00, 0x10, 0x00, 0xF0]) =
    some (.ok ⟨0x9A, 5, .CALLF, .none, [.immediate (.word 0xF000 .farSegment), .immediate (.word 0x1000 .farOffset)]⟩) := by
  decide

/-- `7D EC`: the raw displacement byte (R83, R95). -/
theorem test_step_jge : stepResult (callOn [0x7D, 0xEC]) =
    some (.ok ⟨0x7D, 2, .JGE, .none, [.immediate (.byte 0xEC .relativeJumpDisplacement)]⟩) := by decide

/-- `DF 07`: code `op[2:0] : reg` = 56 (R111). -/
theorem test_step_esc : stepResult (callOn [0xDF, 0x07]) =
    some (.ok ⟨0xDF, 2, .ESC, .word, [.immediate (.byte 56 .escapeCode), .memory ⟨.BX, .noDisp, none⟩]⟩) := by decide

/-- `27`: DAA, length 1, width None (R103). -/
theorem test_step_daa : stepResult (callOn [0x27]) = some (.ok ⟨0x27, 1, .DAA, .none, []⟩) := by decide

/-- `D1 E3`: SHL BX, 1, the 1 not read from the stream (R98). -/
theorem test_step_shl : stepResult (callOn [0xD1, 0xE3]) =
    some (.ok ⟨0xD1, 2, .SHL, .word, [.register .BX, .immediate (.byte 1 .implicitOne)]⟩) := by decide

/-- The errors of 60_exceptions.md R321: `0F`, and `FF F8`. -/
theorem test_step_unknown :
    stepResult (callOn [0x0F]) = some (.err ⟨.unknownOpcode, 0, 0, some 0x0F, none⟩) ∧
      stepResult (callOn [0xFF, 0xF8]) = some (.err ⟨.unknownOpcode, 0, 0, some 0xFF, some 7⟩) := by decide

/-- The errors of R322: `[]`, `81 C0 34`, `8B 86 00`. -/
theorem test_step_end_of_stream :
    stepResult (callOn []) = some (.err ⟨.unexpectedEndOfStream, 0, 0, none, none⟩) ∧
      stepResult (callOn [0x81, 0xC0, 0x34]) = some (.err ⟨.unexpectedEndOfStream, 0, 2, none, none⟩) ∧
      stepResult (callOn [0x8B, 0x86, 0x00]) = some (.err ⟨.unexpectedEndOfStream, 0, 2, none, none⟩) := by decide

/-- The errors of R323: `8D C0`, `8E C8`, `8C E0`, `D5 08`; and R325's `D0 36`, a slot without entry, truncated. -/
theorem test_step_invalid :
    stepResult (callOn [0x8D, 0xC0]) = some (.err ⟨.invalidOperandEncoding, 0, 1, some 0xC0, none⟩) ∧
      stepResult (callOn [0x8E, 0xC8]) = some (.err ⟨.invalidOperandEncoding, 0, 1, some 0xC8, none⟩) ∧
      stepResult (callOn [0x8C, 0xE0]) = some (.err ⟨.invalidOperandEncoding, 0, 1, some 0xE0, none⟩) ∧
      stepResult (callOn [0xD5, 0x08]) = some (.err ⟨.invalidOperandEncoding, 0, 1, some 0x08, none⟩) ∧
      stepResult (callOn [0xD0, 0x36]) = some (.err ⟨.unknownOpcode, 0, 0, some 0xD0, some 6⟩) := by decide

/-- The phases before a failure, as R87 sets them: `0F`, `FF F8`, `D5 08`, and the ends of the stream `[]`, `81`, `7D`,
`8B 86 00`, `81 C0 34` and `81 46 02 34`. -/
theorem test_failing_phases :
    [([0x0F#8], [Phase.start, .opcodeRead]), ([0xFF, 0xF8], [.start, .opcodeRead, .modrmRead]),
     ([0xD5, 0x08], [.start, .opcodeRead, .immediateRead]), ([], [.start]), ([0x81], [.start, .opcodeRead]),
     ([0x7D], [.start, .opcodeRead, .immediateRead]), ([0x8B, 0x86, 0x00], [.start, .opcodeRead, .modrmRead]),
     ([0x81, 0xC0, 0x34], [.start, .opcodeRead, .modrmRead, .immediateRead]),
     ([0x81, 0x46, 0x02, 0x34], [.start, .opcodeRead, .modrmRead, .displacementRead, .immediateRead])].all (fun p =>
      match step (callOn p.1) with
      | .next t => t.trail.dropLast == p.2 && t.trail.getLast? == some t.phase
      | .fault _ => false
      | .refused _ => false) = true := by decide

/-- The spec's own algorithm on a prefixed instruction (R85, R105): `26 C6 07 05`. -/
theorem test_decodeNext_prefix : decodeNext (Memory.ofBytes [0x26, 0xC6, 0x07, 0x05]) 0 "" =
    .ok ⟨0xC6, 4, .MOV, .byte, [.memory ⟨.BX, .noDisp, some .ES⟩, .immediate (.byte 5 .none)]⟩ := by decide

/-! ### Renderings (47_renderer.md R312) and the flag unit (46_flag_unit.md R267, R268) -/

/-- `GetAssembly` on one instruction in both modes gives these texts. -/
def rendersTo (p : List Byte × String × String) : Bool :=
  getAssembly (Memory.ofBytes p.1) "" .asInteger == .ok p.2.1 && getAssembly (Memory.ofBytes p.1) "" .asHex == .ok p.2.2

theorem test_render_immediates :
    [([0x05#8, 0x03, 0xF0], "ADD AX, -4093", "ADD AX, 0xF003"), ([0x7D, 0xEC], "JGE -20", "JGE -20"), ([0x27], "DAA", "DAA"),
     ([0xB0, 0xFF], "MOV AL, -1", "MOV AL, 0xFF"), ([0xCD, 0xFF], "INT 255", "INT 0xFF"), ([0xC2, 0x04, 0x00], "RET 4", "RET 0x0004"),
     ([0x9A, 0x00, 0x10, 0x00, 0xF0], "CALLF 61440:4096", "CALLF 0xF000:0x1000"), ([0xD1, 0xE3], "SHL BX, 1", "SHL BX, 1")].all
      rendersTo = true := by decide

theorem test_render_memory :
    [([0x26#8, 0xC6, 0x07, 0x05], "MOV BYTE ES:[BX], 5", "MOV BYTE ES:[BX], 0x05"),
     ([0x8B, 0x41, 0xDB], "MOV AX, [BX + DI - 37]", "MOV AX, [BX + DI - 37]"),
     ([0x8B, 0x87, 0x00, 0x80], "MOV AX, [BX - 32768]", "MOV AX, [BX - 32768]"), ([0x8B, 0x46, 0x00], "MOV AX, [BP]", "MOV AX, [BP]"),
     ([0xA1, 0xFF, 0xFF], "MOV AX, [65535]", "MOV AX, [65535]"), ([0xFF, 0x36, 0x00, 0x01], "PUSH WORD [256]", "PUSH WORD [256]")].all
      rendersTo = true := by decide

theorem test_getAssembly_joins :
    getAssembly (Memory.ofBytes [0x27, 0x90]) "" .asInteger = .ok "DAA\nNOP" ∧
      getAssembly Memory.empty "" .asInteger = .ok "" ∧
      getAssembly (Memory.ofBytes [0x27, 0x0F]) "" .asHex = .err ⟨.unknownOpcode, 1, 1, some 0x0F, none⟩ := by decide

theorem test_matches : matchesText "; x\n\nadd AL, 1\r\n" "  ADD al, 1" = true ∧ matchesText "DAA" "DAS" = false := by decide

theorem test_parity : isParity8 0b00001010 = true ∧ isParity8 0b00011010 = false ∧ isParity16 0x0100 = true ∧
    isParity16 0xFF01 = false := by decide

/-- 44_control_transfer.md R245: `7D EC` at 0 has target -18, modulo 2^16 0xFFEE. -/
theorem test_relative_target :
    relativeTarget 0 ⟨0x7D, 2, .JGE, .none, [.immediate (.byte 0xEC .relativeJumpDisplacement)]⟩ = some (-18) ∧
      relativeTarget16 0 ⟨0x7D, 2, .JGE, .none, [.immediate (.byte 0xEC .relativeJumpDisplacement)]⟩ = some 0xFFEE := by
  decide

/-- A register file for the consumer's tests. -/
def someRegisters : Registers8086 :=
  { ax := 0x1280, cx := 0, dx := 0, bx := 0, sp := 0, bp := 0, si := 0x10, di := 0x20, es := 2, cs := 0, ss := 0, ds := 1,
    ip := 0, flags := 1 }

/-- 43_string.md R204, R206 with the vectors of 46_flag_unit.md R284: the element at DS:SI is 0x10 and that at ES:DI 0x01;
CMPSB gives 0x10 - 0x01 and SCASB 0x80 - 0x01, whatever CF. -/
theorem test_string_arguments :
    let mem : DataMemory := fun w seg off => if seg = 1 ∧ off = 0x10 then BitVec.ofNat w.bits 0x10
      else if seg = 2 ∧ off = 0x20 then BitVec.ofNat w.bits 0x01 else 0
    (consumerClass someRegisters mem ⟨0xA6, 1, .CMPSB, .byte, []⟩).map (fun x => (x.r, x.flags.of)) =
        some (0x0F, .set false) ∧
      (consumerClass someRegisters mem ⟨0xAE, 1, .SCASB, .byte, []⟩).map (fun x => (x.r, x.flags.of)) =
        some (0x7F, .set true) := by decide

/-- 60_exceptions.md R330: INT3's vector 3 stands at 0x0C, offset word first, and the last vector ends the table. -/
theorem test_vectors :
    readVector (BitVec.ofNat 16) 3 = ⟨0x0C, 0x0E⟩ ∧ vectorWords 4 ⟨0x1234, 0xF000⟩ = [(0x10, 0x1234), (0x12, 0xF000)] ∧
      vectorSegmentAddress 0xFF + 2 = 0x400 := by decide

/-- The per-instruction family, at the longest encoding (R70: 6 bytes). -/
theorem test_encoded_length : (encode (.add (.eI (.mem (.disp16 7 0x1234)) (.word 0x5678)))).length = 6 := by decide

/-! ### The machine runs what is placed at its cursor, from reset -/

theorem test_withFetchWord : stepResult (State.reset.withFetchWord 16 0xF6D8) =
    some (.ok ⟨0xF6, 2, .NEG, .byte, [.register .AL]⟩) := by decide

/-- Placing an instruction after a returned text begins a call with no lines (R352). -/
theorem test_placing_after_return :
    ({ State.reset with lines := ["DAA"], text := some (.ok "DAA") }.withFetchWord 8 0x90).lines = [] ∧
      ({ State.reset with lines := ["DAA"] }.withFetchWord 8 0x90).lines = ["DAA"] := by decide

theorem test_reset_step : step State.reset = .next { State.reset with text := some (.ok "") } := by rfl

/-! ### Witnesses: states and operands that meet the hypotheses of each obligation -/

/-- A `Bool` that says `State.running`. -/
def isRunning (s : State) : Bool :=
  s.buf.admitted && decide (s.pos ≤ s.buf.size) && !s.returned && !s.exhausted &&
    match s.phase with
    | .failed _ => false
    | _ => true

theorem running_of_isRunning {s : State} (h : isRunning s = true) : s.running := by
  simp only [isRunning, Bool.and_eq_true, decide_eq_true_eq, Bool.not_eq_true'] at h
  obtain ⟨⟨⟨⟨ha, hp⟩, hr⟩, he⟩, hf⟩ := h
  refine ⟨ha, hp, fun e hs => ?_, hr, he⟩
  rw [hs] at hf
  cases hf

/-- The `GetAssembly` call on a buffer. -/
def assemblyOn (bs : List Byte) : State := State.ofCall .getAssembly (Memory.ofBytes bs) 0 "" .asHex

/-- A `DecodeNext` call that has read a prefix byte: the buffer is the byte 26 and `bs`. -/
def afterPrefix (bs : List Byte) : State := { callOn (0x26 :: bs) with pos := 1, seg := some .ES }

/-- A call whose `DAA` is complete, in the middle of `GetAssembly`. -/
def afterDaa (bs : List Byte) : State :=
  { assemblyOn (0x27 :: bs) with
    pos := 1, phase := .complete, op := 0x27, entry := .direct .DAA .none .bare,
    trail := [.start, .opcodeRead, .complete], result := some (.ok ⟨0x27, 1, .DAA, .none, []⟩), lines := ["DAA"] }

theorem witness_StepPreservesInvariant :
    (callOn [0x27]).Inv ∧ (∃ t, step (callOn [0x27]) = .next t) ∧ (assemblyOn [0x27]).Inv ∧
      step (assemblyOn [0x27]) = .next (afterDaa []) := by
  refine ⟨⟨by decide, by decide, by decide, by decide, ⟨rfl, rfl, ⟨rfl, rfl, rfl, rfl, rfl, rfl, rfl, rfl, rfl, rfl⟩, by decide⟩, rfl⟩,
    ⟨_, rfl⟩, ⟨by decide, by decide, by decide, by decide, ⟨rfl, rfl, ⟨rfl, rfl, rfl, rfl, rfl, rfl, rfl, rfl, rfl, rfl⟩,
      by decide⟩, ?_⟩, rfl⟩
  intro e h
  cases h

/-- `CallEnds` at both ends: nothing left to read, and a prefix byte consumed with nothing after it. -/
theorem witness_CallEnds : (callOn []).Inv ∧ (afterPrefix []).Inv :=
  ⟨⟨by decide, by decide, by decide, by decide, ⟨rfl, rfl, ⟨rfl, rfl, rfl, rfl, rfl, rfl, rfl, rfl, rfl, rfl⟩, by decide⟩, rfl⟩,
    ⟨by decide, by decide, by decide, by decide, ⟨rfl, rfl, ⟨rfl, rfl, rfl, rfl, rfl, rfl, rfl, rfl, rfl, rfl⟩, by decide⟩, rfl⟩⟩

theorem witness_NoResultDependsOnLatches :
    (afterPrefix [0x90]).sameButLatches { afterPrefix [0x90] with op := 0x55, modrmOffset := 7, disp := .disp16 3, reg := 5 } ∧
      afterPrefix [0x90] ≠ { afterPrefix [0x90] with op := 0x55, modrmOffset := 7, disp := .disp16 3, reg := 5 } :=
  ⟨⟨rfl, rfl⟩, by decide⟩

theorem witness_ModeDoesNotAffectDecode :
    (assemblyOn [0x90]).sameDecode { assemblyOn [0x90] with mode := .asInteger, lines := ["x"] } := ⟨rfl, rfl⟩

theorem witness_StepWritesNoInput : ∃ t, step (callOn [0x27]) = .next t := ⟨_, rfl⟩

theorem witness_DecodeOfEncode :
    (Instr.add (.eI (.mem (.disp16 7 0xFFFF)) (.word 0xFFFF))).wellFormed = true ∧ Instr.nop.wellFormed = true := by decide

theorem witness_EncodeOfDecode : decode [0x00, 0xD8, 0x90] = .ok (.add (.eg .byte (.reg 0) 3), [0x90]) := rfl

theorem witness_RmOperandForms :
    modField 0xC0 = 3 ∧ modField 0xFF = 3 ∧ (modField 0x06 = 0 ∧ rmField 0x06 = 6) ∧ (modField 0x05 = 0 ∧ rmField 0x05 ≠ 6) ∧
      (modField 0x07 = 0 ∧ rmField 0x07 ≠ 6) ∧ modField 0x46 = 1 ∧ modField 0x86 = 2 := by decide

theorem witness_StepRunsDecodedInstruction :
    ((callOn [0x90]).running ∧ Instr.nop.wellFormed = true ∧ (callOn [0x90]).holds .nop ∧ (callOn [0x90]).atBoundary = true) ∧
      ((afterPrefix [0x90]).running ∧ (afterPrefix [0x90]).holds .nop ∧ (afterPrefix [0x90]).atBoundary = false) :=
  ⟨⟨running_of_isRunning (by decide), rfl, ⟨[], rfl⟩, rfl⟩, running_of_isRunning (by decide), ⟨[], rfl⟩, rfl⟩

theorem witness_StepTakesDecodeError :
    ((callOn [0x0F]).running ∧ decode (callOn [0x0F]).fetch = .error (.unknownOpcode 0x0F none) ∧
      (callOn [0x0F]).entryPoint = .decodeNext) ∧
      ((afterDaa [0x0F]).running ∧ decode (afterDaa [0x0F]).fetch = .error (.unknownOpcode 0x0F none) ∧
        (afterDaa [0x0F]).entryPoint = .getAssembly) :=
  ⟨⟨running_of_isRunning (by decide), rfl, rfl⟩, running_of_isRunning (by decide), rfl, rfl⟩

/-- Listed bytes and their neighbours: both directions of the equivalence have a case. -/
theorem witness_UnknownOpcodeBytes :
    (∀ op ∈ [0x0F#8, 0x60, 0x6F, 0xF1], (callOn [op]).running ∧ (callOn [op]).fetch = [op] ∧ op ∈ unknownOpcodeBytes) ∧
      (∀ op ∈ [0x0E#8, 0x5F, 0x70, 0xF2], (callOn [op]).running ∧ (callOn [op]).fetch = [op] ∧ op ∉ unknownOpcodeBytes) := by
  constructor <;> intro op h <;> simp only [List.mem_cons, List.not_mem_nil, or_false] at h <;>
    rcases h with rfl | rfl | rfl | rfl <;> exact ⟨running_of_isRunning (by decide), rfl, by decide⟩

/-- The slots at the edges of R108's ranges, and their neighbours. -/
theorem witness_UnknownGroupSlots :
    ((callOn [0xFE, 0xD0]).running ∧ (callOn [0xFE, 0xD0]).fetch = [0xFE, 0xD0] ∧ unknownGroupSlot 0xFE 2) ∧
      ((callOn [0xD0, 0x36]).running ∧ (callOn [0xD0, 0x36]).fetch = [0xD0, 0x36] ∧ unknownGroupSlot 0xD0 6) ∧
      ((callOn [0xFE, 0xC8]).running ∧ ¬ unknownGroupSlot 0xFE 1) ∧ unknownGroupSlot 0xF7 1 ∧ unknownGroupSlot 0xFF 7 ∧
      unknownGroupSlot 0x8F 1 ∧ unknownGroupSlot 0xC7 7 ∧ ¬ unknownGroupSlot 0x8F 0 ∧ ¬ unknownGroupSlot 0xFF 6 :=
  ⟨⟨running_of_isRunning (by decide), rfl, by unfold unknownGroupSlot; decide⟩,
    ⟨running_of_isRunning (by decide), rfl, by unfold unknownGroupSlot; decide⟩,
    ⟨running_of_isRunning (by decide), by unfold unknownGroupSlot; decide⟩, by unfold unknownGroupSlot; decide,
    by unfold unknownGroupSlot; decide, by unfold unknownGroupSlot; decide, by unfold unknownGroupSlot; decide,
    by unfold unknownGroupSlot; decide, by unfold unknownGroupSlot; decide⟩

/-- R323's examples, and second bytes that pass the checks. -/
theorem witness_InvalidSecondBytes :
    ((callOn [0x8D, 0xC0]).running ∧ (callOn [0x8D, 0xC0]).fetch = [0x8D, 0xC0] ∧ invalidSecondByte 0x8D 0xC0) ∧
      ((callOn [0xD5, 0x08]).running ∧ (callOn [0xD5, 0x08]).fetch = [0xD5, 0x08] ∧ invalidSecondByte 0xD5 0x08) ∧
      ((callOn [0x8D, 0xBF]).running ∧ ¬ invalidSecondByte 0x8D 0xBF) ∧ invalidSecondByte 0xFF 0xD8 ∧
      invalidSecondByte 0x8C 0xE0 ∧ invalidSecondByte 0x8E 0xC8 ∧ ¬ invalidSecondByte 0x8C 0xC8 ∧ ¬ invalidSecondByte 0xD4 0x0A ∧
      ¬ invalidSecondByte 0xFF 0xD0 :=
  ⟨⟨running_of_isRunning (by decide), rfl, by unfold invalidSecondByte; decide⟩,
    ⟨running_of_isRunning (by decide), rfl, by unfold invalidSecondByte; decide⟩,
    ⟨running_of_isRunning (by decide), by unfold invalidSecondByte; decide⟩, by unfold invalidSecondByte; decide,
    by unfold invalidSecondByte; decide, by unfold invalidSecondByte; decide, by unfold invalidSecondByte; decide,
    by unfold invalidSecondByte; decide, by unfold invalidSecondByte; decide⟩

/-- Truncated before the first byte, in the immediate word after five bytes, and in the displacement. -/
theorem witness_TruncatedStreamTakesEndOfStream :
    ((callOn []).running ∧ 0 < (encode .nop).length ∧ (callOn []).fetch = (encode .nop).take 0) ∧
      ((callOn [0x81, 0x87, 0x34, 0x12, 0x78]).running ∧
        5 < (encode (.add (.eI (.mem (.disp16 7 0x1234)) (.word 0x5678)))).length ∧
        (callOn [0x81, 0x87, 0x34, 0x12, 0x78]).fetch =
          (encode (.add (.eI (.mem (.disp16 7 0x1234)) (.word 0x5678)))).take 5) ∧
      ((callOn [0x81, 0x87, 0x34]).running ∧
        (callOn [0x81, 0x87, 0x34]).fetch =
          (encode (.add (.eI (.mem (.disp16 7 0x1234)) (.word 0x5678)))).take 3) :=
  ⟨⟨running_of_isRunning (by decide), by decide, rfl⟩, ⟨running_of_isRunning (by decide), by decide, rfl⟩,
    running_of_isRunning (by decide), rfl⟩

theorem witness_ExecWithoutRoomTakesEndOfStream :
    (callOn [0x00]).pos ≤ (callOn [0x00]).buf.size ∧ ¬ (callOn [0x00]).hasRoom (.add (.eg .byte (.reg 0) 3)) :=
  ⟨by decide, by unfold State.hasRoom; decide⟩

theorem witness_RefusedExactlyOutsideDomain :
    Memory.empty.size ≤ 2 ^ 32 - 1 ∧ (Memory.ofBytes [0x90]).size ≤ 2 ^ 32 - 1 := by decide

theorem witness_GetAssemblyReturnsJoinedLines :
    (State.reset.buf.admitted = true ∧ State.reset.entryPoint = .getAssembly ∧ State.reset.text = none ∧
      State.reset.atBoundary = true ∧ State.reset.pos = State.reset.buf.size) ∧
      ((afterDaa []).buf.admitted = true ∧ (afterDaa []).entryPoint = .getAssembly ∧ (afterDaa []).text = none ∧
        (afterDaa []).atBoundary = true ∧ (afterDaa []).pos = (afterDaa []).buf.size) := by decide

theorem witness_MachineRefinesDecodeNext :
    (Memory.ofBytes [0x90]).admitted = true ∧ 0 ≤ (Memory.ofBytes [0x90]).size ∧ 1 ≤ (Memory.ofBytes [0x90]).size := by decide

theorem witness_MachineRefinesGetAssembly : (Memory.ofBytes [0x27, 0x90]).admitted = true := by decide

theorem witness_BytesOutsideInstructionDoNotMatter :
    decodeAt (Memory.ofBytes [0x90, 0x01]) 0 = .ok ⟨0x90, 1, .NOP, .none, []⟩ ∧
      (∀ a, 0 ≤ a → a < 0 + 1 → (Memory.ofBytes [0x90]).read a = (Memory.ofBytes [0x90, 0x01]).read a) := by
  refine ⟨rfl, fun a _ h => ?_⟩
  obtain rfl : a = 0 := by omega
  rfl

theorem witness_BytesAfterErrorDoNotMatter :
    decodeAt (Memory.ofBytes [0x0F, 0x01]) 0 = .error ⟨.unknownOpcode, 0, 0, some 0x0F, none⟩ ∧
      ErrorKind.unknownOpcode ≠ .unexpectedEndOfStream ∧
      (∀ a, 0 ≤ a → a < Error.cursor ⟨.unknownOpcode, 0, 0, some 0x0F, none⟩ →
        (Memory.ofBytes [0x0F]).read a = (Memory.ofBytes [0x0F, 0x01]).read a) := by
  refine ⟨rfl, by decide, fun a _ h => ?_⟩
  have h' : a < 1 := h
  obtain rfl : a = 0 := by omega
  rfl

/-- `exec i s` answers a completed next state with this property. -/
def completesSo (i : Instr) (s : State) (p : State → Bool) : Bool :=
  match exec i s with
  | .next t => t.phase == .complete && p t
  | .fault _ => false
  | .refused _ => false

/-- Completed decodes without a ModRM byte, with one and no displacement, and a far pointer, in both entry points. -/
theorem witness_CompletedDecodeFrame :
    completesSo .daa (callOn [0x27]) (fun t => decide (.modrmRead ∉ t.trail.drop 1)) = true ∧
      completesSo (.add (.eg .byte (.reg 0) 3)) (callOn [0, 0])
        (fun t => decide (.displacementRead ∉ t.trail.drop 1 ∧ .immediateRead ∉ t.trail.drop 1)) = true ∧
      completesSo (.callf (.far 1 2)) (assemblyOn [0, 0, 0, 0, 0]) (fun t => t.imm2 != .byte 0 .none) = true := by
  decide

/-- `ExecFrame` on a success and on a failure. -/
theorem witness_ExecFrame :
    (∃ t, exec .daa (callOn [0x27]) = .next t ∧ t.phase = .complete) ∧
      (∃ t, exec .daa (callOn []) = .next t ∧ t.phase = .failed ⟨.unexpectedEndOfStream, 0, 0, none, none⟩) :=
  ⟨⟨_, rfl, rfl⟩, _, rfl, rfl⟩

/-- A running state whose step completes a call with this property of its phases and of the state after it. -/
def completesRunning (bs : List Byte) (p : List Phase → State → Bool) : Bool :=
  isRunning (callOn bs) &&
    match step (callOn bs) with
    | .next t => t.phase == .complete && p (t.trail.drop (callOn bs).ready.trail.length) t
    | .fault _ => false
    | .refused _ => false

/-- Each clause: a ModRM byte, a byte and a word displacement, a direct address, none, an immediate with and without a ModRM
byte and displacement, a far pointer, and an immediate operand that is `imm1`, `imm2` and the sign-extended byte of 83. -/
theorem witness_LatchesHoldBytesRead :
    completesRunning [0x00, 0xD8] (fun w _ => decide (.modrmRead ∈ w)) = true ∧
      completesRunning [0x8B, 0x41, 0xDB] (fun w t => decide (.displacementRead ∈ w) && t.mod == 1) = true ∧
      completesRunning [0x8B, 0x87, 0x00, 0x80] (fun w t => decide (.displacementRead ∈ w) && t.mod == 2) = true ∧
      completesRunning [0x8B, 0x06, 0x00, 0x80] (fun w t => decide (.displacementRead ∈ w) && t.mod == 0) = true ∧
      completesRunning [0x8B, 0x07] (fun w t => decide (.modrmRead ∈ w ∧ .displacementRead ∉ w) && t.mod == 0) = true ∧
      completesRunning [0xC7, 0x46, 0x01, 0x34, 0x12] (fun w _ => decide (.immediateRead ∈ w)) = true ∧
      completesRunning [0xA1, 0x34, 0x12] (fun w _ => decide (.immediateRead ∈ w)) = true ∧
      completesRunning [0x9A, 0x00, 0x10, 0x00, 0xF0] (fun _ t => t.op == 0x9A) = true ∧
      completesRunning [0x83, 0xC6, 0xFE] (fun w _ => decide (.immediateRead ∈ w)) = true := by decide

theorem witness_LengthCountsEveryByte :
    (callOn [0x90]).running ∧ (callOn [0x90]).holds .nop ∧ Instr.nop ∉ [Instr.prefixES, .prefixCS, .prefixSS, .prefixDS] ∧
      (callOn [0x90]).ready.p0 ≤ (callOn [0x90]).pos ∧ (afterPrefix [0x90]).running ∧ (afterPrefix [0x90]).holds .nop ∧
      (afterPrefix [0x90]).ready.p0 ≤ (afterPrefix [0x90]).pos :=
  ⟨running_of_isRunning (by decide), ⟨[], rfl⟩, by decide, by decide, running_of_isRunning (by decide), ⟨[], rfl⟩, by decide⟩

theorem witness_PrefixBytesSetSegment : (callOn [0x26]).pos + 1 ≤ (callOn [0x26]).buf.size := by decide

theorem witness_LastPrefixWins :
    (∀ k, k < 2 → (Memory.ofBytes [0x26, 0x2E]).read (0 + k) = ([SegmentType.ES, .CS][k]?).map segPrefixByte) ∧
      0 + 2 ≤ (Memory.ofBytes [0x26, 0x2E]).size ∧ (Memory.ofBytes [0x26, 0x2E]).admitted = true ∧
      0 + ([] : List SegmentType).length ≤ Memory.empty.size := by
  refine ⟨fun k h => ?_, by decide, by decide, by decide⟩
  rcases k with - | - | k
  · rfl
  · rfl
  · omega

/-- A well-formed instruction and a buffer with exactly its bytes. -/
def fits (i : Instr) : Bool :=
  i.wellFormed && decide ((callOn (encode i)).pos + (encode i).length = (callOn (encode i)).buf.size)

/-- A buffer of exactly `n` bytes has room for `n`. -/
def room (n : Nat) : Bool := decide ((callOn (List.replicate n 0)).pos + n = (callOn (List.replicate n 0)).buf.size)

/-- For every completion statement with an r/m operand: each form is well-formed at the ends of its fields and has its room. -/
def rmForms : List RM :=
  [.reg 0, .reg 7, .mem (.direct 0xFFFF), .mem (.noDisp 0), .mem (.noDisp 5), .mem (.noDisp 7), .mem (.disp8 6 0x80),
   .mem (.disp16 7 0xFFFF)]

theorem witness_rm_forms : (rmForms.all fun e => e.wellFormed && room (rmLength e)) = true := by decide

theorem witness_AluFormsComplete :
    (aluTable.all fun row => rmForms.all fun e =>
      fits (row.1 (.eg .word e 7)) && fits (row.1 (.ge .byte 0 e)) && fits (row.1 (.eI e (.byte 0xFF))) &&
        fits (row.1 (.eI e (.word 0xFFFF))) && fits (row.1 (.eI82 e 0)) && fits (row.1 (.eIs e 0x80))) = true ∧
      (aluTable.all fun row => fits (row.1 (.accI (.byte 0))) && fits (row.1 (.accI (.word 0xFFFF)))) = true := by
  decide

/-- The rooms that the completion statements of fixed length ask for, 1, 2, 3 and 5 bytes, and that their tables have rows:
`BareInstructionsComplete`, `ShortJumpsComplete`, and the fixed clauses of the statements below. -/
theorem witness_fixed_lengths :
    (room 1 && room 2 && room 3 && room 5) = true ∧ bareTable ≠ [] ∧ stringTable ≠ [] ∧ shortJumpTable ≠ [] ∧
      unaryTable ≠ [] ∧ shiftTable ≠ [] ∧ loadAddressTable ≠ [] := by decide

/-- One instruction of each other completion statement at each clause, with exactly its room: `IncDecFormsComplete`,
`UnaryAndShiftGroupsComplete`, `TestFormsComplete`, `MovFormsComplete`, `StackAndExchangeFormsComplete`,
`PortFormsComplete`, `LoadAddressFormsComplete`, `NearTransfersComplete`, `FarTransfersAndReturnsComplete`,
`InterruptAdjustEscapeComplete`. -/
theorem witness_completion_clauses :
    ([Instr.inc (.reg16 7), .dec (.reg16 0), .inc (.rm .word (.reg 0)), .dec (.rm .byte (.mem (.direct 0))),
      .neg .byte (.reg 0), .shl .one .word (.mem (.disp16 7 1)), .shr .cl .byte (.reg 7), .test (.eg .word (.reg 0) 7),
      .test (.accI (.byte 1)), .test (.accI (.word 1)), .test (.eI (.reg 0) (.byte 1)), .test (.eI (.mem (.noDisp 7)) (.word 1)),
      .mov (.eg .byte (.reg 0) 7), .mov (.ge .word 7 (.reg 0)), .mov (.eI (.reg 7) (.byte 1)), .mov (.eI (.reg 7) (.word 1)),
      .mov (.regI 7 (.byte 1)), .mov (.regI 0 (.word 1)), .mov (.accMoffs .byte 0), .mov (.moffsAcc .word 0xFFFF),
      .mov (.ewS (.reg 0) .CS), .mov (.sEw .ES (.reg 0)), .mov (.sEw .SS (.mem (.noDisp 0)))].all fits) = true ∧
    ([Instr.push (.reg16 7), .pop (.reg16 0), .xchg (.ax 1), .push (.sreg .CS), .pop (.sreg .ES), .pop (.sreg .DS),
      .push (.rm (.reg 0)), .pop (.rm (.reg 0)), .xchg (.eg .byte (.reg 0) 0), .inPort (.imm .word 0xFF),
      .outPort (.imm .byte 0), .inPort (.dx .byte), .outPort (.dx .word), .lea 7 (.direct 0), .lds 0 (.noDisp 0),
      .les 1 (.disp8 6 0), .call (.rel16 0xFFFF), .jmp (.rel16 0), .jmp (.rel8 0x80), .call (.rm (.reg 0)),
      .jmp (.rm (.mem (.noDisp 7))), .callf (.far 0 0xFFFF), .jmpf (.far 0xFFFF 0), .callf (.mem (.noDisp 7)),
      .jmpf (.mem (.direct 0)), .ret .plain, .retf .plain, .ret (.adjust 0xFFFF), .retf (.adjust 0), .int 0xFF, .aam, .aad,
      .esc 63 (.reg 7), .esc 0 (.mem (.noDisp 0))].all fits) = true := by decide

theorem witness_CarryAndBorrowAreExact :
    (⟨0x10, 2, .ADC, .byte, [.register .AL, .register .CL]⟩ : Instruction).type ∈
        [InstructionType.ADD, .ADC, .SUB, .SBB, .CMP, .NEG, .INC, .DEC, .AND, .TEST, .OR, .XOR] ∧
      .SCASW ∈ [InstructionType.SUB, .CMP, .CMPSB, .CMPSW, .SCASB, .SCASW] := by decide

theorem witness_LogicClassFlags : flagClass .TEST = .logic .and ∧ flagClass .XOR = .logic .xor := by decide

theorem witness_ParityOfLowByte : 0 < 8 ∧ 7 < 8 := by decide

theorem witness_FlagsWordFrame :
    (∀ k ∈ [1, 3, 5, 8, 9, 10, 12, 15, 16], k ∉ [0, 2, 4, 6, 7, 11]) ∧
      (addClass .byte 0xFF 1 false).flags.cf = .set true := by decide

theorem witness_NoFlagClass : .SHL ∈ noFlagClassTypes ∧ .STI ∈ noFlagClassTypes := by decide

theorem witness_MemoryOperandAddress :
    (MemRef.mk .DIRECT (.disp16 1) none).ea = .DIRECT ∧ (MemRef.mk .BP .noDisp (some .DS)).seg = some .DS ∧
      ((MemRef.mk .BP_SI .noDisp none).seg = none ∧ (MemRef.mk .BP_SI .noDisp none).ea ∈ [EAForm.BP_SI, .BP_DI, .BP]) ∧
      ((MemRef.mk .DIRECT (.disp16 1) none).seg = none ∧
        (MemRef.mk .DIRECT (.disp16 1) none).ea ∉ [EAForm.BP_SI, .BP_DI, .BP]) ∧ (0 : Byte) ≠ 0xFF ∧
      (0x3FC, 0x12) ∈ vectorWords 0xFF ⟨0x12, 0⟩ ∧ (0, 0x12) ∈ vectorWords 0 ⟨0x12, 0⟩ := by decide

theorem witness_RelativeTargets :
    (callOn [0xE9, 0, 0x80]).pos + 3 ≤ (callOn [0xE9, 0, 0x80]).buf.size ∧
      (callOn [0x7D, 0xEC]).pos + 2 ≤ (callOn [0x7D, 0xEC]).buf.size ∧ (callOn [0x7D, 0xEC]).p0 ≤ (callOn [0x7D, 0xEC]).pos ∧
      (afterPrefix [0x7D, 0xEC]).p0 < (afterPrefix [0x7D, 0xEC]).pos := by decide

theorem witness_DecimalsAreExact : (1 : Nat) ≠ 0 ∧ 0 < 1 ∧ (decimal 10).toList = ['1', '0'] ∧
    (signedDecimal (-37)).toList = ['-', '3', '7'] ∧ (hexText (.word 0x00AB .none)).toList = ['0', 'x', '0', '0', 'A', 'B'] := by
  decide

/-- The operand lists of each clause, a far pair and a pair that is none; the signs of a displacement; and instructions with
the keyword, without it, and with width None. -/
theorem witness_OperandTexts :
    (∀ g o, ¬ (Operand.register .AL = .immediate g ∧ g.flag = .farSegment ∧ Operand.register .CL = .immediate o ∧
      o.flag = .farOffset)) ∧
      ((Imm.word 1 .farSegment).flag = .farSegment ∧ (Imm.word 1 .farOffset).flag = .farOffset) ∧
      ((Disp.disp16 0x8000).value.toInt = -((32768 : Nat) : Int) ∧ (Disp.disp8 0x7F).value.toInt = ((127 : Nat) : Int) ∧
        Disp.noDisp.value.toInt = 0) ∧
      (InstructionType.INC ∉ [InstructionType.LEA, .LDS, .LES, .CALLF, .JMPF, .ESC] ∧
        [Operand.memory ⟨.BX, .noDisp, none⟩].length = 1) ∧
      InstructionType.LEA ∈ [InstructionType.LEA, .LDS, .LES, .CALLF, .JMPF, .ESC] :=
  ⟨fun _ _ h => (nomatch h.1), by decide, by decide, by decide, by decide⟩

end Sys2Proof.Tests
end

/-! How far a meaning moves the cursor, and what it leaves unchanged. -/

namespace Sys2Proof.Machine

/-! ### The bytes a part moves over -/

/-- A part that succeeds has moved the cursor over `n` bytes. -/
def Part.Advances (p : Part) (n : Nat) : Prop := ∀ s t, p s = .ok t → t.pos = s.pos + n

theorem eq_of_reading_ok {n : Nat} {s t : State} {next : Nat → State} (h : reading n s next = .ok t) :
    t = next (s.pos + n) := by
  by_cases hr : s.pos + n ≤ s.buf.size
  · exact (Except.ok.inj ((reading_ok next hr).symm.trans h)).symm
  · cases (reading_error next hr).symm.trans h

theorem opcodeRead_advances (op : Byte) : Part.Advances (opcodeRead op) 1 :=
  fun _ _ h => congrArg State.pos (eq_of_reading_ok h)

theorem modrmRead_advances (reg : BitVec 3) (e : RM) : Part.Advances (modrmRead reg e) 1 :=
  fun _ _ h => congrArg State.pos (eq_of_reading_ok h)

theorem displacementField_advances (n : Nat) (d : Disp) : Part.Advances (displacementField n d) n :=
  fun _ _ h => congrArg State.pos (eq_of_reading_ok h)

theorem imm1Read_advances (i : Imm) : Part.Advances (imm1Read i) i.size :=
  fun _ _ h => congrArg State.pos (eq_of_reading_ok h)

theorem imm2Read_advances (i : Imm) : Part.Advances (imm2Read i) i.size :=
  fun _ _ h => congrArg State.pos (eq_of_reading_ok h)

theorem displacementRead_advances (e : RM) : Part.Advances (displacementRead e) e.dispBytes.length := by
  cases e with
  | reg r => exact fun _ _ h => (congrArg State.pos (Except.ok.inj h)).symm
  | mem m =>
    cases m with
    | direct a => exact displacementField_advances 2 _
    | noDisp r => exact fun _ _ h => (congrArg State.pos (Except.ok.inj h)).symm
    | disp8 r b => exact displacementField_advances 1 _
    | disp16 r v => exact displacementField_advances 2 _

theorem runParts_nil_advances : Part.Advances (runParts []) 0 :=
  fun _ _ h => congrArg State.pos (Except.ok.inj h).symm

theorem runParts_cons_advances {p : Part} {ps : List Part} {m n : Nat} (hp : Part.Advances p m)
    (hps : Part.Advances (runParts ps) n) : Part.Advances (runParts (p :: ps)) (m + n) := by
  intro s u h
  cases ht : p s with
  | error e => cases (runParts_cons_error ht).symm.trans h
  | ok t => rw [hps t u ((runParts_cons_ok ht).symm.trans h), hp s t ht, Nat.add_assoc]

/-! ### The bytes a meaning moves over -/

/-- `r` is a decode, from state `s`, of one of the five shapes whose parts read as many bytes as `bytes` has. -/
def DecodesBytes (s : State) (bytes : List Byte) (r : Result) : Prop :=
  ∃ parts type width operands, DecodeParts parts ∧ Part.Advances (runParts parts) bytes.length ∧
    r = decodeWith parts type width operands s

section
variable (op : Byte) (reg : BitVec 3) (e : RM) (type : InstructionType) (width : DataWidth) (operands : List Operand)
  (s : State)

theorem decodesBytes_of_advances {parts : List Part} {bytes : List Byte} {n : Nat} (hparts : DecodeParts parts)
    (hadv : Part.Advances (runParts parts) n) (hn : n = bytes.length) :
    DecodesBytes s bytes (decodeWith parts type width operands s) :=
  ⟨parts, type, width, operands, hparts, hn ▸ hadv, rfl⟩

theorem decodeShort_decodesBytes : DecodesBytes s [op] (decodeShort op type width operands s) :=
  decodesBytes_of_advances _ _ _ _ (.short op) (runParts_cons_advances (opcodeRead_advances op) runParts_nil_advances) rfl

theorem decodeImm_decodesBytes {i : Imm} {bytes : List Byte} (hi : i.size = bytes.length) :
    DecodesBytes s (op :: bytes) (decodeImm op i type width operands s) :=
  decodesBytes_of_advances _ _ _ _ (.imm op i)
    (runParts_cons_advances (opcodeRead_advances op) (runParts_cons_advances (imm1Read_advances i) runParts_nil_advances))
    (by rw [hi, List.length_cons]; omega)

theorem decodeFarPointer_decodesBytes {i j : Imm} {offset segment : List Byte} (hi : i.size = offset.length)
    (hj : j.size = segment.length) :
    DecodesBytes s (op :: (offset ++ segment))
      (decodeWith [opcodeRead op, imm1Read i, imm2Read j] type width operands s) :=
  decodesBytes_of_advances _ _ _ _ (.far op i j)
    (runParts_cons_advances (opcodeRead_advances op) (runParts_cons_advances (imm1Read_advances i)
      (runParts_cons_advances (imm2Read_advances j) runParts_nil_advances)))
    (by rw [hi, hj, List.length_cons, List.length_append]; omega)

theorem decodeRM_decodesBytes : DecodesBytes s (op :: e.bytes reg) (decodeRM op reg e type width operands s) :=
  decodesBytes_of_advances _ _ _ _ (.rm op reg e)
    (runParts_cons_advances (opcodeRead_advances op) (runParts_cons_advances (modrmRead_advances reg e)
      (runParts_cons_advances (displacementRead_advances e) runParts_nil_advances)))
    (by rw [RM.bytes, List.length_cons, List.length_cons]; omega)

theorem decodeRMImm_decodesBytes {i : Imm} {bytes : List Byte} (hi : i.size = bytes.length) :
    DecodesBytes s (op :: (e.bytes reg ++ bytes)) (decodeRMImm op reg e i type width operands s) :=
  decodesBytes_of_advances _ _ _ _ (.rmImm op reg e i)
    (runParts_cons_advances (opcodeRead_advances op) (runParts_cons_advances (modrmRead_advances reg e)
      (runParts_cons_advances (displacementRead_advances e)
        (runParts_cons_advances (imm1Read_advances i) runParts_nil_advances))))
    (by rw [hi, RM.bytes, List.length_cons, List.length_append, List.length_cons]; omega)

end

theorem dataImm_size (d : Data) : (dataImm d).size = d.bytes.length := by
  cases d <;> rfl

theorem decodeAlu_decodesBytes (k : Byte) (slot : BitVec 3) (type : InstructionType) (f : AluForm) (s : State) :
    DecodesBytes s (f.encode k slot) (decodeAlu k slot type f s) := by
  cases f with
  | eg | ge => exact decodeRM_decodesBytes ..
  | accI d => exact decodeImm_decodesBytes _ _ _ _ _ (dataImm_size d)
  | eI e d => exact decodeRMImm_decodesBytes _ _ _ _ _ _ _ (dataImm_size d)
  | eI82 | eIs => exact decodeRMImm_decodesBytes _ _ _ _ _ _ _ rfl

theorem decodeIncDec_decodesBytes (k : Byte) (slot : BitVec 3) (type : InstructionType) (f : IncDecForm) (s : State) :
    DecodesBytes s (f.encode k slot) (decodeIncDec k slot type f s) := by
  cases f with
  | reg16 => exact decodeShort_decodesBytes ..
  | rm => exact decodeRM_decodesBytes ..

theorem decodeFar_decodesBytes (k : Byte) (slot : BitVec 3) (type : InstructionType) (f : FarForm) (s : State) :
    DecodesBytes s (f.encode k slot) (decodeFar k slot type f s) := by
  cases f with
  | far off seg =>
    exact decodeFarPointer_decodesBytes (offset := wordBytes off) (segment := wordBytes seg) _ _ _ _ _ rfl rfl
  | mem => exact decodeRM_decodesBytes ..

theorem decodeRet_decodesBytes (k : Byte) (type : InstructionType) (f : RetForm) (s : State) :
    DecodesBytes s (f.encode k) (decodeRet k type f s) := by
  cases f with
  | plain => exact decodeShort_decodesBytes ..
  | adjust => exact decodeImm_decodesBytes _ _ _ _ _ rfl

theorem execMov_decodesBytes (f : MovForm) (s : State) : DecodesBytes s f.encode (execMov f s) := by
  cases f with
  | eg | ge | ewS | sEw => exact decodeRM_decodesBytes ..
  | eI e d => exact decodeRMImm_decodesBytes _ _ _ _ _ _ _ (dataImm_size d)
  | regI r d => exact decodeImm_decodesBytes _ _ _ _ _ (dataImm_size d)
  | accMoffs | moffsAcc => exact decodeImm_decodesBytes _ _ _ _ _ rfl

theorem execPush_decodesBytes (f : StackForm) (s : State) : DecodesBytes s f.encodePush (execPush f s) := by
  cases f with
  | reg16 | sreg => exact decodeShort_decodesBytes ..
  | rm => exact decodeRM_decodesBytes ..

theorem execPop_decodesBytes (f : StackForm) (s : State) : DecodesBytes s f.encodePop (execPop f s) := by
  cases f with
  | reg16 | sreg => exact decodeShort_decodesBytes ..
  | rm => exact decodeRM_decodesBytes ..

theorem execXchg_decodesBytes (f : XchgForm) (s : State) : DecodesBytes s f.encode (execXchg f s) := by
  cases f with
  | eg => exact decodeRM_decodesBytes ..
  | ax => exact decodeShort_decodesBytes ..

theorem execInPort_decodesBytes (f : PortForm) (s : State) : DecodesBytes s (f.encode 0xE4 0xEC) (execInPort f s) := by
  cases f with
  | imm => exact decodeImm_decodesBytes _ _ _ _ _ rfl
  | dx => exact decodeShort_decodesBytes ..

theorem execOutPort_decodesBytes (f : PortForm) (s : State) :
    DecodesBytes s (f.encode 0xE6 0xEE) (execOutPort f s) := by
  cases f with
  | imm => exact decodeImm_decodesBytes _ _ _ _ _ rfl
  | dx => exact decodeShort_decodesBytes ..

theorem execTest_decodesBytes (f : TestForm) (s : State) : DecodesBytes s f.encode (execTest f s) := by
  cases f with
  | eg => exact decodeRM_decodesBytes ..
  | accI d => exact decodeImm_decodesBytes _ _ _ _ _ (dataImm_size d)
  | eI e d => exact decodeRMImm_decodesBytes _ _ _ _ _ _ _ (dataImm_size d)

theorem execCall_decodesBytes (f : CallForm) (s : State) : DecodesBytes s f.encode (execCall f s) := by
  cases f with
  | rel16 => exact decodeImm_decodesBytes _ _ _ _ _ rfl
  | rm => exact decodeRM_decodesBytes ..

theorem execJmp_decodesBytes (f : JmpForm) (s : State) : DecodesBytes s f.encode (execJmp f s) := by
  cases f with
  | rel8 | rel16 => exact decodeImm_decodesBytes _ _ _ _ _ rfl
  | rm => exact decodeRM_decodesBytes ..

/-- A meaning reads as many bytes as the instruction's encoding has (30_encoding.md R70, R85, R116): the one byte
that sets the segment override, or those of a decode. -/
theorem exec_reads_encode (i : Instr) (s : State) :
    (∃ seg, (encode i).length = 1 ∧ exec i s = readSegPrefix seg s) ∨ DecodesBytes s (encode i) (exec i s) := by
  cases i with
  | prefixES | prefixCS | prefixSS | prefixDS => exact .inl ⟨_, rfl, rfl⟩
  | mov f => exact .inr (execMov_decodesBytes f s)
  | push f => exact .inr (execPush_decodesBytes f s)
  | pop f => exact .inr (execPop_decodesBytes f s)
  | xchg f => exact .inr (execXchg_decodesBytes f s)
  | inPort f => exact .inr (execInPort_decodesBytes f s)
  | outPort f => exact .inr (execOutPort_decodesBytes f s)
  | test f => exact .inr (execTest_decodesBytes f s)
  | call f => exact .inr (execCall_decodesBytes f s)
  | jmp f => exact .inr (execJmp_decodesBytes f s)
  | add | adc | sub | sbb | cmp | and | or | xor => exact .inr (decodeAlu_decodesBytes ..)
  | inc | dec => exact .inr (decodeIncDec_decodesBytes ..)
  | callf | jmpf => exact .inr (decodeFar_decodesBytes ..)
  | ret | retf => exact .inr (decodeRet_decodesBytes ..)
  | lea | lds | les | neg | mul | imul | div | idiv | not | shl | shr | sar | rol | ror | rcl | rcr | esc =>
    exact .inr (decodeRM_decodesBytes ..)
  | jo | jno | jb | jae | je | jne | jbe | ja | js | jns | jp | jnp | jl | jge | jle | jg | loop | loopz | loopnz | jcxz
  | int | aam | aad =>
    exact .inr (decodeImm_decodesBytes _ _ _ _ _ rfl)
  | xlat | lahf | sahf | pushf | popf | aaa | daa | aas | das | cbw | cwd | rep | repne | movsb | movsw | cmpsb | cmpsw
  | scasb | scasw | lodsb | lodsw | stosb | stosw | int3 | into | iret | clc | cmc | stc | cld | std | cli | sti | hlt
  | wait | lock | nop =>
    exact .inr (decodeShort_decodesBytes ..)

/-! ### The frame of a meaning -/

/-- The buffer, the call's inputs and its start are those of `s`; and if the call has not failed, so is the text, and the
cursor has moved over `n` bytes. -/
structure ReadsOnly (n : Nat) (s t : State) : Prop where
  buf : t.buf = s.buf
  label : t.label = s.label
  mode : t.mode = s.mode
  entryPoint : t.entryPoint = s.entryPoint
  p0 : t.p0 = s.p0
  of_not_failed : (∀ e, t.phase ≠ .failed e) → t.text = s.text ∧ s.pos + n = t.pos

theorem Keeps.readsOnly_takeError {s t : State} (h : Keeps s t) (n : Nat) (e : Error) :
    ReadsOnly n s (takeError e t) :=
  ⟨h.buf, h.label, h.mode, h.entryPoint, h.p0, fun hf => absurd rfl (hf e)⟩

theorem Keeps.readsOnly_complete {s t : State} (h : Keeps s t) {n : Nat} (hp : t.pos = s.pos + n)
    (type : InstructionType) (width : DataWidth) (operands : List Operand) :
    ReadsOnly n s (complete type width operands t) :=
  ⟨h.buf, h.label, h.mode, h.entryPoint, h.p0, fun _ => ⟨h.text, hp.symm⟩⟩

theorem readSegPrefix_readsOnly (seg : SegmentType) (s : State) :
    ∃ t, readSegPrefix seg s = .next t ∧ ReadsOnly 1 s t := by
  by_cases hr : s.pos + 1 ≤ s.buf.size
  · exact ⟨_, readSegPrefix_ok hr, rfl, rfl, rfl, rfl, rfl, fun _ => ⟨rfl, rfl⟩⟩
  · exact ⟨_, readSegPrefix_error hr, (Keeps.refl s).readsOnly_takeError 1 _⟩

theorem DecodesBytes.readsOnly {s : State} {bytes : List Byte} {r : Result} (h : DecodesBytes s bytes r) :
    ∃ t, r = .next t ∧ ReadsOnly bytes.length s t := by
  obtain ⟨parts, type, width, operands, hparts, hadv, rfl⟩ := h
  rcases hparts.reads s with ⟨t, ht, hk⟩ | ⟨e, t, he, -, hk⟩
  · exact ⟨_, by simp only [decodeWith, ht], hk.readsOnly_complete (hadv s t ht) type width operands⟩
  · exact ⟨_, by simp only [decodeWith, he], hk.readsOnly_takeError _ e⟩

theorem exec_readsOnly (i : Instr) (s : State) : ∃ t, exec i s = .next t ∧ ReadsOnly (encode i).length s t := by
  rcases exec_reads_encode i s with ⟨seg, hlen, hexec⟩ | h
  · rw [hlen, hexec]
    exact readSegPrefix_readsOnly seg s
  · exact h.readsOnly

/-- Settles O27: every meaning reads the bytes of its encoding and writes neither the buffer nor an input. -/
theorem execFrame : Obligations.ExecFrame := by
  intro i s t h
  obtain ⟨u, hu, hr⟩ := exec_readsOnly i s
  cases hu.symm.trans h
  exact ⟨hr.buf, fun a => by rw [hr.buf], hr.label, hr.mode, hr.entryPoint, hr.p0, hr.of_not_failed⟩

end Sys2Proof.Machine

/-! What the decoder reads: a unit that decodes begins with the encoding of its instruction, and an error is shown by
the bytes at hand. -/

namespace Sys2Proof

/-- How many bytes from the decoder's first one show the error, or stand before the read that failed. -/
def DecodeError.extent : DecodeError → Nat
  | .unknownOpcode _ none => 1
  | .unknownOpcode _ (some _) => 2
  | .endOfStream k => k
  | .invalidOperand _ => 2

/-- `i` is well-formed, and `bs` is its encoding. -/
def Instr.EncodesAs (i : Instr) (bs : List Byte) : Prop := i.wellFormed = true ∧ encode i = bs

/-- A decoder that goes on after the bytes `pre` inverts the encoder: what it gives is well-formed and encodes as all
the bytes read, and its error is shown by the bytes there are. -/
def Decoder.Inverts (pre : List Byte) (d : Decoder) : Prop :=
  ∀ bs, (∀ i rest, d bs = .ok (i, rest) → i.wellFormed = true ∧ pre ++ bs = encode i ++ rest) ∧
    ∀ e, d bs = .error e → e.extent ≤ pre.length + bs.length

/-! ### The reads a decoder is made of -/

section
variable {pre : List Byte}

theorem done_inverts {i : Instr} (h : i.EncodesAs pre) : Decoder.Inverts pre (done i) := by
  refine fun bs => ⟨fun j rest hj => ?_, fun e he => nomatch he⟩
  cases hj
  exact ⟨h.1, by rw [h.2]⟩

theorem error_inverts {e : DecodeError} (h : e.extent ≤ pre.length) : Decoder.Inverts pre (fun _ => .error e) := by
  refine fun bs => ⟨fun i rest hi => (nomatch hi), fun f hf => ?_⟩
  cases hf
  omega

theorem readByte_inverts {n : Nat} {k : Byte → Decoder} (hn : n ≤ pre.length)
    (hk : ∀ b, (k b).Inverts (pre ++ [b])) : (readByte n k).Inverts pre := by
  intro bs
  cases bs with
  | nil => exact error_inverts (e := .endOfStream n) hn []
  | cons b bs => simpa [readByte, Nat.add_assoc, Nat.add_comm 1] using hk b bs

theorem readWord_inverts {n : Nat} {k : Word → Decoder} (hn : n ≤ pre.length)
    (hk : ∀ v, (k v).Inverts (pre ++ wordBytes v)) : (readWord n k).Inverts pre := by
  intro bs
  match bs with
  | [] => exact error_inverts (e := .endOfStream n) hn []
  | [b] => exact error_inverts (e := .endOfStream n) hn [b]
  | lo :: hi :: bs =>
    simpa [readWord, wordBytes, Nat.add_assoc, Nat.add_comm 2] using hk (wordOfBytes lo hi) bs

theorem readData_inverts {w : OpWidth} {n : Nat} {k : Data → Decoder} (hn : n ≤ pre.length)
    (hk : ∀ d, d.width = w → (k d).Inverts (pre ++ d.bytes)) : (readData w n k).Inverts pre := by
  cases w with
  | byte => exact readByte_inverts hn fun b => hk (.byte b) rfl
  | word => exact readWord_inverts hn fun v => hk (.word v) rfl

end

section
variable {op : Byte} {m : Byte}

/-- A memory operand is read with the fields of its ModRM byte, and is well-formed. -/
theorem readMem_inverts {k : Mem → Nat → Decoder} (hm : modField m ≠ 3)
    (hk : ∀ x : Mem, x.wellFormed = true → m = modrmByte x.mod (regField m) x.rm →
      (k x (2 + x.dispBytes.length)).Inverts ([op, m] ++ x.dispBytes)) : (readMem m k).Inverts [op, m] := by
  have fields {x : Mem} (h1 : x.mod = modField m) (h2 : x.rm = rmField m) : m = modrmByte x.mod (regField m) x.rm := by
    rw [h1, h2, modrmByte_fields]
  unfold readMem
  by_cases h0 : modField m = 0
  · by_cases h6 : rmField m = 6
    · rw [if_pos h0, if_pos h6]
      exact readWord_inverts (le_refl 2) fun a => hk (.direct a) rfl (fields h0.symm h6.symm)
    · rw [if_pos h0, if_neg h6]
      exact hk (.noDisp (rmField m)) (bne_iff_ne.mpr h6) (fields h0.symm rfl)
  · by_cases h1 : modField m = 1
    · rw [if_neg h0, if_pos h1]
      exact readByte_inverts (le_refl 2) fun b => hk (.disp8 (rmField m) b) rfl (fields h1.symm rfl)
    · have h2 : modField m = 2 := by
        revert h0 h1 hm; generalize modField m = x; revert x; decide
      rw [if_neg h0, if_neg h1]
      exact readWord_inverts (le_refl 2) fun v => hk (.disp16 (rmField m) v) rfl (fields h2.symm rfl)

theorem readRM_inverts {k : RM → Nat → Decoder}
    (hk : ∀ e : RM, e.wellFormed = true → (k e (2 + e.dispBytes.length)).Inverts (op :: e.bytes (regField m))) :
    (readRM m k).Inverts [op, m] := by
  unfold readRM
  by_cases h3 : modField m = 3
  · rw [if_pos h3]
    have hm : (RM.reg (rmField m)).bytes (regField m) = [m] := by
      rw [RM.bytes, RM.mod, RM.rm, RM.dispBytes, ← h3, modrmByte_fields]
    exact hm ▸ hk (.reg (rmField m)) rfl
  · rw [if_neg h3]
    refine readMem_inverts h3 fun x hx hm => ?_
    simpa [RM.bytes, RM.mod, RM.rm, RM.dispBytes, ← hm] using hk (.mem x) hx

theorem readMemOnly_inverts {k : Mem → Decoder}
    (hk : ∀ x : Mem, x.wellFormed = true → (k x).Inverts (op :: (RM.mem x).bytes (regField m))) :
    (readMemOnly m k).Inverts [op, m] := by
  unfold readMemOnly
  by_cases h3 : modField m = 3
  · rw [if_pos h3]
    exact error_inverts (le_refl 2)
  · rw [if_neg h3]
    refine readMem_inverts h3 fun x hx hm => ?_
    simpa [RM.bytes, RM.mod, RM.rm, RM.dispBytes, ← hm] using hk x hx

end

/-! ### The recipes -/

section
variable {op : Byte}

theorem unknown_inverts : (unknown op).Inverts [op] := error_inverts (le_refl 1)

theorem bare_inverts {i : Instr} (h : i.EncodesAs [op]) : (bare i op).Inverts [op] := done_inverts h

theorem modrm_inverts {k : Byte → Decoder} (hk : ∀ m, (k m).Inverts [op, m]) : (readByte 1 k).Inverts [op] :=
  readByte_inverts (le_refl 1) hk

theorem recEG_inverts {c : OpWidth → RM → BitVec 3 → Instr}
    (h : ∀ e g, e.wellFormed = true → (c (opWidth op) e g).EncodesAs (op :: e.bytes g)) :
    (recEG c op).Inverts [op] :=
  modrm_inverts fun _ => readRM_inverts fun e he => done_inverts (h e _ he)

theorem recGE_inverts {c : OpWidth → BitVec 3 → RM → Instr}
    (h : ∀ g e, e.wellFormed = true → (c (opWidth op) g e).EncodesAs (op :: e.bytes g)) :
    (recGE c op).Inverts [op] :=
  modrm_inverts fun _ => readRM_inverts fun e he => done_inverts (h _ e he)

theorem recAccI_inverts {c : Data → Instr} (h : ∀ d, d.width = opWidth op → (c d).EncodesAs (op :: d.bytes)) :
    (recAccI c op).Inverts [op] :=
  readData_inverts (le_refl 1) fun d hd => done_inverts (h d hd)

theorem recGM_inverts {c : BitVec 3 → Mem → Instr}
    (h : ∀ g x, x.wellFormed = true → (c g x).EncodesAs (op :: (RM.mem x).bytes g)) : (recGM c op).Inverts [op] :=
  modrm_inverts fun _ => readMemOnly_inverts fun x hx => done_inverts (h _ x hx)

theorem recReg_inverts {c : BitVec 3 → Instr} (h : (c (opReg3 op)).EncodesAs [op]) : (recReg c op).Inverts [op] :=
  done_inverts h

theorem recSreg_inverts {c : SegmentType → Instr} (h : (c (opSeg op)).EncodesAs [op]) : (recSreg c op).Inverts [op] :=
  done_inverts h

theorem recRegI_inverts
    (h : ∀ d : Data, d.width = (if op.getLsbD 3 then .word else .byte) →
      (MovForm.regI (opReg3 op) d).opcode = op) : (recRegI op).Inverts [op] :=
  readData_inverts (le_refl 1) fun d hd => done_inverts ⟨rfl, congrArg (· :: d.bytes) (h d hd)⟩

theorem recByte_inverts {c : Byte → Instr} (h : ∀ b, (c b).EncodesAs [op, b]) : (recByte c op).Inverts [op] :=
  readByte_inverts (le_refl 1) fun b => done_inverts (h b)

theorem recWord_inverts {c : Word → Instr} (h : ∀ v, (c v).EncodesAs (op :: wordBytes v)) :
    (recWord c op).Inverts [op] :=
  readWord_inverts (le_refl 1) fun v => done_inverts (h v)

theorem recFar_inverts {c : Word → Word → Instr}
    (h : ∀ o g, (c o g).EncodesAs (op :: (wordBytes o ++ wordBytes g))) : (recFar c op).Inverts [op] :=
  readWord_inverts (le_refl 1) fun o => readWord_inverts (le_refl 3) fun g => done_inverts (h o g)

theorem recMoffs_inverts {c : OpWidth → Word → Instr} (h : ∀ a, (c (opWidth op) a).EncodesAs (op :: wordBytes a)) :
    (recMoffs c op).Inverts [op] :=
  readWord_inverts (le_refl 1) fun a => done_inverts (h a)

theorem recPort_inverts {c : OpWidth → Byte → Instr} (h : ∀ b, (c (opWidth op) b).EncodesAs [op, b]) :
    (recPort c op).Inverts [op] :=
  readByte_inverts (le_refl 1) fun b => done_inverts (h b)

theorem recDx_inverts {c : OpWidth → Instr} (h : (c (opWidth op)).EncodesAs [op]) : (recDx c op).Inverts [op] :=
  done_inverts h

theorem recBase10_inverts {i : Instr} (h : i.EncodesAs [op, 0x0A]) : (recBase10 i op).Inverts [op] := by
  refine readByte_inverts (le_refl 1) fun b => ?_
  by_cases hb : b = 0x0A
  · rw [if_pos hb, hb]
    exact done_inverts h
  · rw [if_neg hb]
    exact error_inverts (le_refl 2)

/-- The segment register that a `reg` field below 4 names has that field (30_encoding.md R99). -/
theorem reg_segOfCode {r : BitVec 3} (h : r.getLsbD 2 = false) : (segOfCode (r.extractLsb' 0 2)).reg = r := by
  revert r; decide

theorem segOfCode_ne_CS {r : BitVec 3} (h : r.getLsbD 2 = false) (h1 : r ≠ 1) :
    (segOfCode (r.extractLsb' 0 2) != .CS) = true := by
  revert r; decide

theorem recEwS_inverts : (recEwS 0x8C).Inverts [0x8C] := by
  refine modrm_inverts fun m => ?_
  by_cases h : (regField m).getLsbD 2 = true
  · rw [if_pos h]
    exact error_inverts (le_refl 2)
  · rw [if_neg h]
    refine readRM_inverts fun e he => done_inverts ⟨he, ?_⟩
    rw [encode, MovForm.encode, reg_segOfCode (Bool.not_eq_true _ ▸ h)]
    rfl

theorem recSEw_inverts : (recSEw 0x8E).Inverts [0x8E] := by
  refine modrm_inverts fun m => ?_
  by_cases h : (regField m).getLsbD 2 = true ∨ regField m = 1
  · rw [if_pos h]
    exact error_inverts (le_refl 2)
  · rw [if_neg h]
    obtain ⟨h4, h1⟩ := not_or.mp h
    rw [Bool.not_eq_true] at h4
    refine readRM_inverts fun e he => done_inverts ⟨Bool.and_eq_true_iff.mpr ⟨segOfCode_ne_CS h4 h1, he⟩, ?_⟩
    rw [encode, MovForm.encode, reg_segOfCode h4]
    rfl

theorem recEsc_inverts (h : escOpcode (opReg3 op ++ (0 : BitVec 3)) = op) : (recEsc op).Inverts [op] := by
  have hop : ∀ r g : BitVec 3, escOpcode (r ++ g) = escOpcode (r ++ (0 : BitVec 3)) := by decide
  have hreg : ∀ r g : BitVec 3, (r ++ g).extractLsb' 0 3 = g := by decide
  refine modrm_inverts fun m => readRM_inverts fun e he => done_inverts ⟨he, ?_⟩
  rw [encode, hop, hreg, h]

/-! ### The groups -/

/-- The slots of a group from number `k` on invert the encoder, each for the ModRM bytes whose `reg` names it. -/
def SlotsInvert (op : Byte) : Nat → List (Option (Byte → Byte → Decoder)) → Prop
  | _, [] => True
  | k, none :: slots => SlotsInvert op (k + 1) slots
  | k, some slot :: slots =>
    (∀ m, (regField m).toNat = k → (slot op m).Inverts [op, m]) ∧ SlotsInvert op (k + 1) slots

theorem SlotsInvert.getD {slots : List (Option (Byte → Byte → Decoder))} {k n : Nat} (h : SlotsInvert op k slots)
    {slot : Byte → Byte → Decoder} (hn : slots.getD n none = some slot) (m : Byte) (hm : (regField m).toNat = k + n) :
    (slot op m).Inverts [op, m] := by
  induction slots generalizing k n with
  | nil => cases hn
  | cons x slots ih =>
    cases n with
    | zero => cases x with
      | none => cases hn
      | some y => cases hn; exact h.1 m hm
    | succ n =>
      have hrest : SlotsInvert op (k + 1) slots := by
        cases x with
        | none => exact h
        | some y => exact h.2
      exact ih hrest hn (by omega)

theorem group_inverts {slots : List (Option (Byte → Byte → Decoder))} (h : SlotsInvert op 0 slots) :
    (group slots op).Inverts [op] := by
  refine modrm_inverts fun m => ?_
  cases hs : slots.getD (regField m).toNat none with
  | none => exact error_inverts (le_refl 2)
  | some slot => exact h.getD hs m (Nat.zero_add _).symm

variable {k : Nat}

theorem slotE_inverts {c : OpWidth → RM → Instr}
    (h : ∀ e, e.wellFormed = true → (c (opWidth op) e).EncodesAs (op :: e.bytes (BitVec.ofNat 3 k))) (m : Byte)
    (hm : (regField m).toNat = k) : (slotE c op m).Inverts [op, m] := by
  subst hm
  exact readRM_inverts fun e he => done_inverts (by simpa using h e he)

theorem slotM_inverts {c : Mem → Instr}
    (h : ∀ x, x.wellFormed = true → (c x).EncodesAs (op :: (RM.mem x).bytes (BitVec.ofNat 3 k))) (m : Byte)
    (hm : (regField m).toNat = k) : (slotM c op m).Inverts [op, m] := by
  subst hm
  exact readMemOnly_inverts fun x hx => done_inverts (by simpa using h x hx)

theorem slotEI_inverts {c : RM → Data → Instr}
    (h : ∀ e d, e.wellFormed = true → d.width = opWidth op →
      (c e d).EncodesAs (op :: (e.bytes (BitVec.ofNat 3 k) ++ d.bytes))) (m : Byte)
    (hm : (regField m).toNat = k) : (slotEI c op m).Inverts [op, m] := by
  subst hm
  refine readRM_inverts fun e he => readData_inverts ?_ fun d hd => done_inverts (by simpa using h e d he hd)
  simp [RM.bytes]; omega

theorem slotEByte_inverts {c : RM → Byte → Instr}
    (h : ∀ e b, e.wellFormed = true → (c e b).EncodesAs (op :: (e.bytes (BitVec.ofNat 3 k) ++ [b]))) (m : Byte)
    (hm : (regField m).toNat = k) : (slotEByte c op m).Inverts [op, m] := by
  subst hm
  refine readRM_inverts fun e he => readByte_inverts ?_ fun b => done_inverts (by simpa using h e b he)
  simp [RM.bytes]; omega

end

/-- Group 1 inverts the encoder if each ALU instruction's slot does. -/
theorem group1_inverts {op : Byte} {r : (AluForm → Instr) → Byte → Byte → Decoder}
    (h : ∀ (c : AluForm → Instr) (k : Byte) (slot : BitVec 3), (∀ f : AluForm, (c f).wellFormed = f.wellFormed) →
      (∀ f, encode (c f) = f.encode k slot) → ∀ m, (regField m).toNat = slot.toNat → (r c op m).Inverts [op, m]) :
    (group1 r op).Inverts [op] :=
  group_inverts ⟨h .add 0x00 0 (fun _ => rfl) (fun _ => rfl), h .or 0x08 1 (fun _ => rfl) (fun _ => rfl),
    h .adc 0x10 2 (fun _ => rfl) (fun _ => rfl), h .sbb 0x18 3 (fun _ => rfl) (fun _ => rfl),
    h .and 0x20 4 (fun _ => rfl) (fun _ => rfl), h .sub 0x28 5 (fun _ => rfl) (fun _ => rfl),
    h .xor 0x30 6 (fun _ => rfl) (fun _ => rfl), h .cmp 0x38 7 (fun _ => rfl) (fun _ => rfl), trivial⟩

theorem group1EI_inverts {op : Byte} (h : ∀ d : Data, d.width = opWidth op → 0x80 + d.width.bit = op) :
    (group1EI op).Inverts [op] :=
  group1_inverts fun c k slot hwf henc m hm => slotEI_inverts
    (fun e d he hd => ⟨(hwf (.eI e d)).trans he, by rw [henc, AluForm.encode, AluForm.opcode, h d hd]; simp⟩) m hm

theorem group1EI82_inverts : (group1EI82 0x82).Inverts [0x82] :=
  group1_inverts fun c k slot hwf henc m hm => slotEByte_inverts
    (fun e b he => ⟨(hwf (.eI82 e b)).trans he, by simp [henc, AluForm.encode, AluForm.opcode]⟩) m hm

theorem group1EIs_inverts : (group1EIs 0x83).Inverts [0x83] :=
  group1_inverts fun c k slot hwf henc m hm => slotEByte_inverts
    (fun e b he => ⟨(hwf (.eIs e b)).trans he, by simp [henc, AluForm.encode, AluForm.opcode]⟩) m hm

theorem group2_inverts {op : Byte} {n : ShiftCount} (h : n.opcode (opWidth op) = op) :
    (group2 n op).Inverts [op] := by
  have slot {c : OpWidth → RM → Instr} {k : Nat}
      (hc : ∀ w e, (c w e).wellFormed = e.wellFormed ∧ encode (c w e) = n.opcode w :: e.bytes (BitVec.ofNat 3 k)) :
      ∀ m, (regField m).toNat = k → (slotE c op m).Inverts [op, m] :=
    slotE_inverts fun e he => ⟨(hc _ e).1.trans he, by rw [(hc _ e).2, h]⟩
  exact group_inverts ⟨slot fun _ _ => ⟨rfl, rfl⟩, slot fun _ _ => ⟨rfl, rfl⟩, slot fun _ _ => ⟨rfl, rfl⟩,
    slot fun _ _ => ⟨rfl, rfl⟩, slot fun _ _ => ⟨rfl, rfl⟩, slot fun _ _ => ⟨rfl, rfl⟩,
    slot fun _ _ => ⟨rfl, rfl⟩, trivial⟩

theorem group3_inverts {op : Byte} (h : 0xF6 + (opWidth op).bit = op) : (group3 op).Inverts [op] := by
  have slot {c : OpWidth → RM → Instr} {k : Nat}
      (hc : ∀ w e, (c w e).wellFormed = e.wellFormed ∧
        encode (c w e) = (0xF6 + w.bit) :: e.bytes (BitVec.ofNat 3 k)) :
      ∀ m, (regField m).toNat = k → (slotE c op m).Inverts [op, m] :=
    slotE_inverts fun e he => ⟨(hc _ e).1.trans he, by rw [(hc _ e).2, h]⟩
  exact group_inverts ⟨slotEI_inverts fun e d he hd => ⟨he, by rw [← hd] at h; rw [← h]; rfl⟩,
    slot fun _ _ => ⟨rfl, rfl⟩, slot fun _ _ => ⟨rfl, rfl⟩, slot fun _ _ => ⟨rfl, rfl⟩,
    slot fun _ _ => ⟨rfl, rfl⟩, slot fun _ _ => ⟨rfl, rfl⟩, slot fun _ _ => ⟨rfl, rfl⟩, trivial⟩

theorem group4_inverts : (group4 0xFE).Inverts [0xFE] :=
  group_inverts ⟨slotE_inverts fun _ he => ⟨he, rfl⟩, slotE_inverts fun _ he => ⟨he, rfl⟩, trivial⟩

theorem group5_inverts : (group5 0xFF).Inverts [0xFF] :=
  group_inverts ⟨slotE_inverts fun _ he => ⟨he, rfl⟩, slotE_inverts fun _ he => ⟨he, rfl⟩,
    slotE_inverts fun _ he => ⟨he, rfl⟩, slotM_inverts fun _ hx => ⟨hx, rfl⟩, slotE_inverts fun _ he => ⟨he, rfl⟩,
    slotM_inverts fun _ hx => ⟨hx, rfl⟩, slotE_inverts fun _ he => ⟨he, rfl⟩, trivial⟩

theorem group8F_inverts : (group8F 0x8F).Inverts [0x8F] :=
  group_inverts ⟨slotE_inverts fun _ he => ⟨he, rfl⟩, trivial⟩

theorem groupC6_inverts {op : Byte} (h : ∀ d : Data, d.width = opWidth op → 0xC6 + d.width.bit = op) :
    (groupC6 op).Inverts [op] :=
  group_inverts ⟨slotEI_inverts fun e d he hd => ⟨he, by rw [← h d hd]; rfl⟩, trivial⟩

/-! ### The opcode map -/

/-- The decoders of the opcodes from number `k` on invert the encoder. -/
def OpcodesInvert : Nat → List OpDecoder → Prop
  | _, [] => True
  | k, d :: ds => (d (BitVec.ofNat 8 k)).Inverts [BitVec.ofNat 8 k] ∧ OpcodesInvert (k + 1) ds

theorem OpcodesInvert.append {ds es : List OpDecoder} {k : Nat} (hd : OpcodesInvert k ds)
    (he : OpcodesInvert (k + ds.length) es) : OpcodesInvert k (ds ++ es) := by
  induction ds generalizing k with
  | nil => exact he
  | cons d ds ih =>
    refine ⟨hd.1, ih hd.2 ?_⟩
    rwa [List.length_cons, Nat.add_comm ds.length, ← Nat.add_assoc] at he

theorem OpcodesInvert.replicate {d : OpDecoder} {k n : Nat}
    (h : ∀ j < n, (d (BitVec.ofNat 8 (k + j))).Inverts [BitVec.ofNat 8 (k + j)]) :
    OpcodesInvert k (List.replicate n d) := by
  induction n generalizing k with
  | zero => trivial
  | succ n ih =>
    refine ⟨h 0 (Nat.succ_pos n), ih fun j hj => ?_⟩
    have := h (j + 1) (Nat.succ_lt_succ hj)
    rwa [Nat.add_comm j, ← Nat.add_assoc] at this

theorem OpcodesInvert.getD {ds : List OpDecoder} {k n : Nat} (h : OpcodesInvert k ds) (hn : n < ds.length)
    (d : OpDecoder) : (ds.getD n d (BitVec.ofNat 8 (k + n))).Inverts [BitVec.ofNat 8 (k + n)] := by
  induction ds generalizing k n with
  | nil => exact absurd hn (Nat.not_lt_zero n)
  | cons e ds ih =>
    cases n with
    | zero => exact h.1
    | succ n =>
      have := ih h.2 (Nat.lt_of_succ_lt_succ hn)
      rwa [Nat.add_right_comm] at this

theorem opWidth_ofNat (k : Nat) : opWidth (BitVec.ofNat 8 k) = if k % 2 = 1 then .word else .byte := by
  simp only [opWidth, BitVec.getLsbD_ofNat, Nat.testBit_zero]
  simp

/-- The six opcodes of an ALU instruction with an even base `k`. -/
theorem aluRow_inverts {c : AluForm → Instr} {k : Nat} {slot : BitVec 3} (hk : k % 2 = 0)
    (h : ∀ f : AluForm, f.wellFormed = true → (c f).EncodesAs (f.encode (BitVec.ofNat 8 k) slot)) :
    OpcodesInvert k (aluRow c) := by
  have byte {n : Nat} (hn : n % 2 = 0) : opWidth (BitVec.ofNat 8 n) = .byte := by rw [opWidth_ofNat, if_neg (by omega)]
  have word {n : Nat} (hn : n % 2 = 1) : opWidth (BitVec.ofNat 8 n) = .word := by rw [opWidth_ofNat, if_pos hn]
  have op2 : BitVec.ofNat 8 (k + 2) = BitVec.ofNat 8 k + 2 := BitVec.ofNat_add k 2
  have op3 : BitVec.ofNat 8 (k + 3) = BitVec.ofNat 8 k + 2 + 1 := by rw [← op2]; exact BitVec.ofNat_add (k + 2) 1
  have op4 : BitVec.ofNat 8 (k + 4) = BitVec.ofNat 8 k + 4 := BitVec.ofNat_add k 4
  have op5 : BitVec.ofNat 8 (k + 5) = BitVec.ofNat 8 k + 4 + 1 := by rw [← op4]; exact BitVec.ofNat_add (k + 4) 1
  refine ⟨recEG_inverts fun e g he => ?_, recEG_inverts fun e g he => ?_, recGE_inverts fun g e he => ?_,
    recGE_inverts fun g e he => ?_, recAccI_inverts fun d hd => ?_, recAccI_inverts fun d hd => ?_, trivial⟩
  · simpa [byte hk, AluForm.encode, AluForm.opcode, OpWidth.bit] using h (.eg .byte e g) he
  · rw [word (by omega), BitVec.ofNat_add]; exact h (.eg .word e g) he
  · rw [byte (by omega), op2]
    simpa [AluForm.encode, AluForm.opcode, OpWidth.bit] using h (.ge .byte g e) he
  · rw [word (by omega), op3]; exact h (.ge .word g e) he
  · rw [byte (by omega)] at hd
    rw [op4]
    simpa [AluForm.encode, AluForm.opcode, OpWidth.bit, hd] using h (.accI d) rfl
  · rw [word (by omega)] at hd
    rw [op5]
    simpa [AluForm.encode, AluForm.opcode, OpWidth.bit, hd] using h (.accI d) rfl

theorem opcodes00_invert : OpcodesInvert 0x00 opcodes00 := by
  have pushPop {k : Nat} (hpush : (Instr.push (.sreg (opSeg (BitVec.ofNat 8 k)))).EncodesAs [BitVec.ofNat 8 k])
      (hpop : (Instr.pop (.sreg (opSeg (BitVec.ofNat 8 (k + 1))))).EncodesAs [BitVec.ofNat 8 (k + 1)]) :
      OpcodesInvert k [recSreg fun s => .push (.sreg s), recSreg fun s => .pop (.sreg s)] :=
    ⟨recSreg_inverts hpush, recSreg_inverts hpop, trivial⟩
  have bares {k : Nat} {i j : Instr} (hi : i.EncodesAs [BitVec.ofNat 8 k]) (hj : j.EncodesAs [BitVec.ofNat 8 (k + 1)]) :
      OpcodesInvert k [bare i, bare j] :=
    ⟨bare_inverts hi, bare_inverts hj, trivial⟩
  have row00 : OpcodesInvert 0x00 (aluRow .add) := aluRow_inverts (slot := 0) rfl fun _ h => ⟨h, rfl⟩
  have row06 := pushPop (k := 0x06) ⟨rfl, rfl⟩ ⟨rfl, rfl⟩
  have row08 : OpcodesInvert 0x08 (aluRow .or) := aluRow_inverts (slot := 1) rfl fun _ h => ⟨h, rfl⟩
  have row0E : OpcodesInvert 0x0E [recSreg fun s => .push (.sreg s), unknown] :=
    ⟨recSreg_inverts ⟨rfl, rfl⟩, unknown_inverts, trivial⟩
  have row10 : OpcodesInvert 0x10 (aluRow .adc) := aluRow_inverts (slot := 2) rfl fun _ h => ⟨h, rfl⟩
  have row16 := pushPop (k := 0x16) ⟨rfl, rfl⟩ ⟨rfl, rfl⟩
  have row18 : OpcodesInvert 0x18 (aluRow .sbb) := aluRow_inverts (slot := 3) rfl fun _ h => ⟨h, rfl⟩
  have row1E := pushPop (k := 0x1E) ⟨rfl, rfl⟩ ⟨rfl, rfl⟩
  have row20 : OpcodesInvert 0x20 (aluRow .and) := aluRow_inverts (slot := 4) rfl fun _ h => ⟨h, rfl⟩
  have row26 : OpcodesInvert 0x26 [bare .prefixES, bare .daa] := bares ⟨rfl, rfl⟩ ⟨rfl, rfl⟩
  have row28 : OpcodesInvert 0x28 (aluRow .sub) := aluRow_inverts (slot := 5) rfl fun _ h => ⟨h, rfl⟩
  have row2E : OpcodesInvert 0x2E [bare .prefixCS, bare .das] := bares ⟨rfl, rfl⟩ ⟨rfl, rfl⟩
  have row30 : OpcodesInvert 0x30 (aluRow .xor) := aluRow_inverts (slot := 6) rfl fun _ h => ⟨h, rfl⟩
  have row36 : OpcodesInvert 0x36 [bare .prefixSS, bare .aaa] := bares ⟨rfl, rfl⟩ ⟨rfl, rfl⟩
  have row38 : OpcodesInvert 0x38 (aluRow .cmp) := aluRow_inverts (slot := 7) rfl fun _ h => ⟨h, rfl⟩
  have row3E : OpcodesInvert 0x3E [bare .prefixDS, bare .aas] := bares ⟨rfl, rfl⟩ ⟨rfl, rfl⟩
  exact row00.append row06 |>.append row08 |>.append row0E |>.append row10 |>.append row16 |>.append row18
    |>.append row1E |>.append row20 |>.append row26 |>.append row28 |>.append row2E |>.append row30 |>.append row36
    |>.append row38 |>.append row3E

theorem opcodes40_invert : OpcodesInvert 0x40 opcodes40 := by
  have inc : ∀ j < 8, encode (.inc (.reg16 (opReg3 (BitVec.ofNat 8 (0x40 + j))))) = [BitVec.ofNat 8 (0x40 + j)] := by
    decide
  have dec : ∀ j < 8, encode (.dec (.reg16 (opReg3 (BitVec.ofNat 8 (0x48 + j))))) = [BitVec.ofNat 8 (0x48 + j)] := by
    decide
  have push : ∀ j < 8, encode (.push (.reg16 (opReg3 (BitVec.ofNat 8 (0x50 + j))))) = [BitVec.ofNat 8 (0x50 + j)] := by
    decide
  have pop : ∀ j < 8, encode (.pop (.reg16 (opReg3 (BitVec.ofNat 8 (0x58 + j))))) = [BitVec.ofNat 8 (0x58 + j)] := by
    decide
  have row40 : OpcodesInvert 0x40 (.replicate 8 (recReg fun r => .inc (.reg16 r))) :=
    .replicate fun j hj => recReg_inverts ⟨rfl, inc j hj⟩
  have row48 : OpcodesInvert 0x48 (.replicate 8 (recReg fun r => .dec (.reg16 r))) :=
    .replicate fun j hj => recReg_inverts ⟨rfl, dec j hj⟩
  have row50 : OpcodesInvert 0x50 (.replicate 8 (recReg fun r => .push (.reg16 r))) :=
    .replicate fun j hj => recReg_inverts ⟨rfl, push j hj⟩
  have row58 : OpcodesInvert 0x58 (.replicate 8 (recReg fun r => .pop (.reg16 r))) :=
    .replicate fun j hj => recReg_inverts ⟨rfl, pop j hj⟩
  have row60 : OpcodesInvert 0x60 (.replicate 16 unknown) := .replicate fun _ _ => unknown_inverts
  have row70 : OpcodesInvert 0x70 [recByte .jo, recByte .jno, recByte .jb, recByte .jae, recByte .je, recByte .jne,
      recByte .jbe, recByte .ja] := by
    refine ⟨?_, ?_, ?_, ?_, ?_, ?_, ?_, ?_, trivial⟩ <;> exact recByte_inverts fun _ => ⟨rfl, rfl⟩
  have row78 : OpcodesInvert 0x78 [recByte .js, recByte .jns, recByte .jp, recByte .jnp, recByte .jl, recByte .jge,
      recByte .jle, recByte .jg] := by
    refine ⟨?_, ?_, ?_, ?_, ?_, ?_, ?_, ?_, trivial⟩ <;> exact recByte_inverts fun _ => ⟨rfl, rfl⟩
  exact row40.append row48 |>.append row50 |>.append row58 |>.append row60 |>.append row70 |>.append row78

theorem opcodes80_invert : OpcodesInvert 0x80 opcodes80 := by
  have row80 : OpcodesInvert 0x80 [group1EI, group1EI, group1EI82, group1EIs, recEG fun w e g => .test (.eg w e g),
      recEG fun w e g => .test (.eg w e g), recEG fun w e g => .xchg (.eg w e g),
      recEG fun w e g => .xchg (.eg w e g)] :=
    ⟨group1EI_inverts fun _ hd => hd ▸ rfl, group1EI_inverts fun _ hd => hd ▸ rfl, group1EI82_inverts,
      group1EIs_inverts, recEG_inverts fun _ _ he => ⟨he, rfl⟩, recEG_inverts fun _ _ he => ⟨he, rfl⟩,
      recEG_inverts fun _ _ he => ⟨he, rfl⟩, recEG_inverts fun _ _ he => ⟨he, rfl⟩, trivial⟩
  have row88 : OpcodesInvert 0x88 [recEG fun w e g => .mov (.eg w e g), recEG fun w e g => .mov (.eg w e g),
      recGE fun w g e => .mov (.ge w g e), recGE fun w g e => .mov (.ge w g e), recEwS, recGM .lea, recSEw,
      group8F] :=
    ⟨recEG_inverts fun _ _ he => ⟨he, rfl⟩, recEG_inverts fun _ _ he => ⟨he, rfl⟩,
      recGE_inverts fun _ _ he => ⟨he, rfl⟩, recGE_inverts fun _ _ he => ⟨he, rfl⟩, recEwS_inverts,
      recGM_inverts fun _ _ hx => ⟨hx, rfl⟩, recSEw_inverts, group8F_inverts, trivial⟩
  have row90 : OpcodesInvert 0x90 [bare .nop] := ⟨bare_inverts ⟨rfl, rfl⟩, trivial⟩
  have xchg : ∀ j < 7, (Instr.xchg (.ax (opReg3 (BitVec.ofNat 8 (0x91 + j))))).wellFormed = true ∧
      encode (.xchg (.ax (opReg3 (BitVec.ofNat 8 (0x91 + j))))) = [BitVec.ofNat 8 (0x91 + j)] := by
    decide
  have row91 : OpcodesInvert 0x91 (.replicate 7 (recReg fun r => .xchg (.ax r))) :=
    .replicate fun j hj => recReg_inverts (xchg j hj)
  have row98 : OpcodesInvert 0x98 [bare .cbw, bare .cwd, recFar fun o s => .callf (.far o s), bare .wait, bare .pushf,
      bare .popf, bare .sahf, bare .lahf] :=
    ⟨bare_inverts ⟨rfl, rfl⟩, bare_inverts ⟨rfl, rfl⟩, recFar_inverts fun _ _ => ⟨rfl, rfl⟩, bare_inverts ⟨rfl, rfl⟩,
      bare_inverts ⟨rfl, rfl⟩, bare_inverts ⟨rfl, rfl⟩, bare_inverts ⟨rfl, rfl⟩, bare_inverts ⟨rfl, rfl⟩, trivial⟩
  have rowA0 : OpcodesInvert 0xA0 [recMoffs fun w a => .mov (.accMoffs w a), recMoffs fun w a => .mov (.accMoffs w a),
      recMoffs fun w a => .mov (.moffsAcc w a), recMoffs fun w a => .mov (.moffsAcc w a), bare .movsb, bare .movsw,
      bare .cmpsb, bare .cmpsw] :=
    ⟨recMoffs_inverts fun _ => ⟨rfl, rfl⟩, recMoffs_inverts fun _ => ⟨rfl, rfl⟩, recMoffs_inverts fun _ => ⟨rfl, rfl⟩,
      recMoffs_inverts fun _ => ⟨rfl, rfl⟩, bare_inverts ⟨rfl, rfl⟩, bare_inverts ⟨rfl, rfl⟩, bare_inverts ⟨rfl, rfl⟩,
      bare_inverts ⟨rfl, rfl⟩, trivial⟩
  have test (d : Data) : encode (.test (.accI d)) = (0xA8 + d.width.bit) :: d.bytes := rfl
  have rowA8 : OpcodesInvert 0xA8 [recAccI fun d => .test (.accI d), recAccI fun d => .test (.accI d), bare .stosb,
      bare .stosw, bare .lodsb, bare .lodsw, bare .scasb, bare .scasw] :=
    ⟨recAccI_inverts fun d hd => ⟨rfl, by rw [test, hd]; rfl⟩, recAccI_inverts fun d hd => ⟨rfl, by rw [test, hd]; rfl⟩,
      bare_inverts ⟨rfl, rfl⟩, bare_inverts ⟨rfl, rfl⟩, bare_inverts ⟨rfl, rfl⟩, bare_inverts ⟨rfl, rfl⟩,
      bare_inverts ⟨rfl, rfl⟩, bare_inverts ⟨rfl, rfl⟩, trivial⟩
  have regI8 : ∀ j < 16, (BitVec.ofNat 8 (0xB0 + j)).getLsbD 3 = false →
      0b10110#5 ++ opReg3 (BitVec.ofNat 8 (0xB0 + j)) = BitVec.ofNat 8 (0xB0 + j) := by decide
  have regI16 : ∀ j < 16, (BitVec.ofNat 8 (0xB0 + j)).getLsbD 3 = true →
      0b10111#5 ++ opReg3 (BitVec.ofNat 8 (0xB0 + j)) = BitVec.ofNat 8 (0xB0 + j) := by decide
  have rowB0 : OpcodesInvert 0xB0 (.replicate 16 recRegI) := by
    refine .replicate fun j hj => recRegI_inverts fun d hd => ?_
    cases hb : (BitVec.ofNat 8 (0xB0 + j)).getLsbD 3 with
    | false =>
      rw [hb] at hd
      cases d with
      | byte b => exact regI8 j hj hb
      | word v => cases hd
    | true =>
      rw [hb] at hd
      cases d with
      | byte b => cases hd
      | word v => exact regI16 j hj hb
  exact row80.append row88 |>.append row90 |>.append row91 |>.append row98 |>.append rowA0 |>.append rowA8
    |>.append rowB0

theorem opcodesC0_invert : OpcodesInvert 0xC0 opcodesC0 := by
  have rowC0 : OpcodesInvert 0xC0 [unknown, unknown, recWord fun n => .ret (.adjust n), bare (.ret .plain), recGM .les,
      recGM .lds, groupC6, groupC6] :=
    ⟨unknown_inverts, unknown_inverts, recWord_inverts fun _ => ⟨rfl, rfl⟩, bare_inverts ⟨rfl, rfl⟩,
      recGM_inverts fun _ _ hx => ⟨hx, rfl⟩, recGM_inverts fun _ _ hx => ⟨hx, rfl⟩,
      groupC6_inverts fun _ hd => hd ▸ rfl, groupC6_inverts fun _ hd => hd ▸ rfl, trivial⟩
  have rowC8 : OpcodesInvert 0xC8 [unknown, unknown, recWord fun n => .retf (.adjust n), bare (.retf .plain),
      bare .int3, recByte .int, bare .into, bare .iret] :=
    ⟨unknown_inverts, unknown_inverts, recWord_inverts fun _ => ⟨rfl, rfl⟩, bare_inverts ⟨rfl, rfl⟩,
      bare_inverts ⟨rfl, rfl⟩, recByte_inverts fun _ => ⟨rfl, rfl⟩, bare_inverts ⟨rfl, rfl⟩, bare_inverts ⟨rfl, rfl⟩,
      trivial⟩
  have rowD0 : OpcodesInvert 0xD0 [group2 .one, group2 .one, group2 .cl, group2 .cl, recBase10 .aam, recBase10 .aad,
      unknown, bare .xlat] :=
    ⟨group2_inverts rfl, group2_inverts rfl, group2_inverts rfl, group2_inverts rfl, recBase10_inverts ⟨rfl, rfl⟩,
      recBase10_inverts ⟨rfl, rfl⟩, unknown_inverts, bare_inverts ⟨rfl, rfl⟩, trivial⟩
  have esc : ∀ j < 8, escOpcode (opReg3 (BitVec.ofNat 8 (0xD8 + j)) ++ (0 : BitVec 3)) = BitVec.ofNat 8 (0xD8 + j) := by
    decide
  have rowD8 : OpcodesInvert 0xD8 (.replicate 8 recEsc) := .replicate fun j hj => recEsc_inverts (esc j hj)
  have rowE0 : OpcodesInvert 0xE0 [recByte .loopnz, recByte .loopz, recByte .loop, recByte .jcxz,
      recPort fun w b => .inPort (.imm w b), recPort fun w b => .inPort (.imm w b),
      recPort fun w b => .outPort (.imm w b), recPort fun w b => .outPort (.imm w b)] :=
    ⟨recByte_inverts fun _ => ⟨rfl, rfl⟩, recByte_inverts fun _ => ⟨rfl, rfl⟩, recByte_inverts fun _ => ⟨rfl, rfl⟩,
      recByte_inverts fun _ => ⟨rfl, rfl⟩, recPort_inverts fun _ => ⟨rfl, rfl⟩, recPort_inverts fun _ => ⟨rfl, rfl⟩,
      recPort_inverts fun _ => ⟨rfl, rfl⟩, recPort_inverts fun _ => ⟨rfl, rfl⟩, trivial⟩
  have rowE8 : OpcodesInvert 0xE8 [recWord fun d => .call (.rel16 d), recWord fun d => .jmp (.rel16 d),
      recFar fun o s => .jmpf (.far o s), recByte fun d => .jmp (.rel8 d), recDx fun w => .inPort (.dx w),
      recDx fun w => .inPort (.dx w), recDx fun w => .outPort (.dx w), recDx fun w => .outPort (.dx w)] :=
    ⟨recWord_inverts fun _ => ⟨rfl, rfl⟩, recWord_inverts fun _ => ⟨rfl, rfl⟩, recFar_inverts fun _ _ => ⟨rfl, rfl⟩,
      recByte_inverts fun _ => ⟨rfl, rfl⟩, recDx_inverts ⟨rfl, rfl⟩, recDx_inverts ⟨rfl, rfl⟩,
      recDx_inverts ⟨rfl, rfl⟩, recDx_inverts ⟨rfl, rfl⟩, trivial⟩
  have rowF0 : OpcodesInvert 0xF0 [bare .lock, unknown, bare .repne, bare .rep, bare .hlt, bare .cmc, group3, group3] :=
    ⟨bare_inverts ⟨rfl, rfl⟩, unknown_inverts, bare_inverts ⟨rfl, rfl⟩, bare_inverts ⟨rfl, rfl⟩,
      bare_inverts ⟨rfl, rfl⟩, bare_inverts ⟨rfl, rfl⟩, group3_inverts rfl, group3_inverts rfl, trivial⟩
  have rowF8 : OpcodesInvert 0xF8 [bare .clc, bare .stc, bare .cli, bare .sti, bare .cld, bare .std, group4, group5] :=
    ⟨bare_inverts ⟨rfl, rfl⟩, bare_inverts ⟨rfl, rfl⟩, bare_inverts ⟨rfl, rfl⟩, bare_inverts ⟨rfl, rfl⟩,
      bare_inverts ⟨rfl, rfl⟩, bare_inverts ⟨rfl, rfl⟩, group4_inverts, group5_inverts, trivial⟩
  exact rowC0.append rowC8 |>.append rowD0 |>.append rowD8 |>.append rowE0 |>.append rowE8 |>.append rowF0
    |>.append rowF8

theorem opcodeMap_inverts (op : Byte) : (opcodeMap.getD op.toNat unknown op).Inverts [op] := by
  have h0 : opcodes00.length = 64 := rfl
  have h4 : opcodes40.length = 64 := rfl
  have h8 : opcodes80.length = 64 := rfl
  have hC : opcodesC0.length = 64 := rfl
  have hlen : opcodeMap.length = 256 := by simp only [opcodeMap, List.length_append, h0, h4, h8, hC]
  have upTo80 : OpcodesInvert 0 (opcodes00 ++ opcodes40) :=
    opcodes00_invert.append (by rw [h0]; exact opcodes40_invert)
  have upToC0 : OpcodesInvert 0 (opcodes00 ++ opcodes40 ++ opcodes80) :=
    upTo80.append (by rw [List.length_append, h0, h4]; exact opcodes80_invert)
  have all : OpcodesInvert 0 opcodeMap :=
    upToC0.append (by rw [List.length_append, List.length_append, h0, h4, h8]; exact opcodesC0_invert)
  have hop : op.toNat < opcodeMap.length := op.isLt.trans_eq hlen.symm
  simpa using all.getD hop unknown

theorem decode_inverts : Decoder.Inverts [] decode := by
  intro bs
  cases bs with
  | nil => exact error_inverts (e := .endOfStream 0) (le_refl 0) []
  | cons op bs => simpa [decode, Nat.add_comm 1] using opcodeMap_inverts op bs

/-- What decodes is well-formed, and the bytes it was read from begin with its encoding. -/
theorem decode_ok {bs rest : List Byte} {i : Instr} (h : decode bs = .ok (i, rest)) :
    i.wellFormed = true ∧ bs = encode i ++ rest :=
  (decode_inverts bs).1 i rest h

/-- What shows a decode error lies within the bytes at hand. -/
theorem extent_le_of_decode_error {bs : List Byte} {e : DecodeError} (h : decode bs = .error e) :
    e.extent ≤ bs.length := by
  simpa using (decode_inverts bs).2 e h

end Sys2Proof

/-! What a step does in a running state, and that every step keeps the invariant. -/

namespace Sys2Proof.Machine

/-! ### The state a unit is decoded from -/

theorem ready_of_atBoundary {s : State} (h : s.atBoundary = true) : s.ready = s.beginCall := if_pos h

theorem ready_of_not_atBoundary {s : State} (h : s.atBoundary = false) : s.ready = s := if_neg (by simp [h])

@[simp] theorem ready_buf (s : State) : s.ready.buf = s.buf := by unfold State.ready; split <;> rfl

@[simp] theorem ready_pos (s : State) : s.ready.pos = s.pos := by unfold State.ready; split <;> rfl

@[simp] theorem ready_entryPoint (s : State) : s.ready.entryPoint = s.entryPoint := by unfold State.ready; split <;> rfl

@[simp] theorem ready_lines (s : State) : s.ready.lines = s.lines := by unfold State.ready; split <;> rfl

@[simp] theorem ready_text (s : State) : s.ready.text = s.text := by unfold State.ready; split <;> rfl

@[simp] theorem ready_fetch (s : State) : s.ready.fetch = s.fetch := by simp [State.fetch]

/-! ### A step by the state it is taken in -/

theorem step_of_not_admitted {s : State} (h : s.buf.admitted = false) : step s = .refused .bufferTooLong := by
  simp [step, callStep, h]

theorem step_of_past_end {s : State} (hadm : s.buf.admitted = true) (h : s.buf.size < s.pos) :
    step s = .refused .startPastEnd := by
  simp [step, callStep, hadm, h]

theorem step_of_running {s : State} (h : s.running) : step s = decodeUnit exec s.ready := by
  obtain ⟨hadm, hpos, hfail, hret, hex⟩ := h
  cases hp : s.phase with
  | failed e => exact absurd hp (hfail e)
  | _ => simp [step, callStep, hadm, Nat.not_lt.mpr hpos, hp, hret, hex]

theorem step_of_failed {s : State} {e : Error} (hadm : s.buf.admitted = true) (hpos : s.pos ≤ s.buf.size)
    (hp : s.phase = .failed e) : step s = .fault (Fault.ofError e) := by
  simp [step, callStep, hadm, Nat.not_lt.mpr hpos, hp]

theorem step_of_returned {s : State} (hadm : s.buf.admitted = true) (hpos : s.pos ≤ s.buf.size)
    (hfail : ∀ e, s.phase ≠ .failed e) (hret : s.returned = true) : step s = .next s := by
  cases hp : s.phase with
  | failed e => exact absurd hp (hfail e)
  | _ => simp [step, callStep, hadm, Nat.not_lt.mpr hpos, hp, hret]

theorem step_of_exhausted {s : State} (hadm : s.buf.admitted = true) (hpos : s.pos ≤ s.buf.size)
    (hfail : ∀ e, s.phase ≠ .failed e) (hret : s.returned = false) (hex : s.exhausted = true) :
    step s = .next s.returnText := by
  cases hp : s.phase with
  | failed e => exact absurd hp (hfail e)
  | _ => simp [step, callStep, hadm, Nat.not_lt.mpr hpos, hp, hret, hex]

/-- WHAT A STEP THAT GOES ON DOES: the call has returned and nothing changes, or `GetAssembly` returns its text, or one
unit is decoded. -/
theorem step_next_cases {s t : State} (hadm : s.buf.admitted = true) (hpos : s.pos ≤ s.buf.size)
    (h : step s = .next t) :
    t = s ∨ (s.returned = false ∧ s.exhausted = true ∧ t = s.returnText) ∨
      (s.running ∧ decodeUnit exec s.ready = .next t) := by
  have hfail : ∀ e, s.phase ≠ .failed e := fun e he => nomatch (step_of_failed hadm hpos he).symm.trans h
  cases hret : s.returned with
  | true =>
    cases (step_of_returned hadm hpos hfail hret).symm.trans h
    exact .inl rfl
  | false =>
    cases hex : s.exhausted with
    | true =>
      cases (step_of_exhausted hadm hpos hfail hret hex).symm.trans h
      exact .inr (.inl ⟨rfl, rfl, rfl⟩)
    | false =>
      have hrun : s.running := ⟨hadm, hpos, hfail, hret, hex⟩
      exact .inr (.inr ⟨hrun, (step_of_running hrun).symm.trans h⟩)

/-! ### Where an error is shown -/

theorem fetch_length {s : State} : s.fetch.length = min maxInstrBytes (s.buf.size - s.pos) := by
  rcases Nat.lt_or_ge s.buf.size s.pos with h | h
  · rw [State.fetch, Nat.sub_eq_zero_of_le h.le, Nat.min_zero, slice_zero, List.length_nil]
  · exact slice_length _ _ (by omega)

theorem fetch_length_le {s : State} (h : s.pos ≤ s.buf.size) : s.pos + s.fetch.length ≤ s.buf.size := by
  rw [fetch_length]; omega

/-- The cursor of a failed call stands after the bytes that show the error. -/
theorem cursor_errorOf (p0 pos : Nat) (e : DecodeError) : (errorOf p0 pos e).cursor = pos + e.extent := by
  cases e with
  | unknownOpcode op subop => cases subop <;> rfl
  | endOfStream k => rfl
  | invalidOperand b => rfl

@[simp] theorem start_errorOf (p0 pos : Nat) (e : DecodeError) : (errorOf p0 pos e).start = p0 := by
  cases e <;> rfl

theorem offset_errorOf_le (p0 pos : Nat) (e : DecodeError) : (errorOf p0 pos e).offset ≤ pos + e.extent := by
  cases e with
  | unknownOpcode op subop => exact Nat.le_add_right ..
  | endOfStream k => exact le_refl _
  | invalidOperand b => exact Nat.le_succ _

theorem le_offset_errorOf (p0 pos : Nat) (e : DecodeError) : pos ≤ (errorOf p0 pos e).offset := by
  cases e with
  | unknownOpcode op subop => exact le_refl _
  | endOfStream k => exact Nat.le_add_right ..
  | invalidOperand b => exact Nat.le_succ _

/-- Before a decode error a call has passed one of the phase sequences of a failing call. -/
theorem phasesBefore_failed (bytes : List Byte) (e : DecodeError) : .start :: phasesBefore bytes e ∈ failedTrails := by
  cases e with
  | unknownOpcode op subop => cases subop <;> simp [phasesBefore, failedTrails]
  | invalidOperand b =>
    cases bytes with
    | nil => simp [phasesBefore, failedTrails]
    | cons op bs => simp only [phasesBefore]; split <;> simp [failedTrails]
  | endOfStream k =>
    match bytes with
    | [] => simp [phasesBefore, failedTrails]
    | [op] => simp only [phasesBefore]; split <;> simp [failedTrails]
    | op :: m :: bs =>
      simp only [phasesBefore]
      split_ifs <;> simp [failedTrails]

theorem decodeUnit_of_error {s : State} {e : DecodeError} (h : decode s.fetch = .error e) :
    decodeUnit exec s = .next (takeError (errorOf s.p0 s.pos e) (s.through (phasesBefore s.fetch e))) := by
  rw [decodeUnit, h]

theorem decodeUnit_of_ok {s : State} {i : Instr} {rest : List Byte} (h : decode s.fetch = .ok (i, rest)) :
    decodeUnit exec s = exec i s := by
  rw [decodeUnit, h]

theorem takeError_latchesUnwritten (e : Error) (s : State) : (takeError e s).latchesUnwritten :=
  ⟨rfl, rfl, rfl, rfl, rfl, rfl, rfl, rfl, rfl, rfl⟩

/-- Settles O15: the step takes the error after the phases that `phasesBefore` gives, with its cursor in the buffer. -/
theorem stepTakesDecodeError : Obligations.StepTakesDecodeError := by
  intro s e hrun he
  have hstep := step_of_running hrun
  rw [decodeUnit_of_error (by rwa [ready_fetch]), ready_pos, ready_fetch] at hstep
  obtain ⟨hadm, hpos, -, -, -⟩ := hrun
  have hcursor : (errorOf s.ready.p0 s.pos e).cursor ≤ s.buf.size := by
    rw [cursor_errorOf]
    have := extent_le_of_decode_error he
    have := fetch_length_le hpos
    omega
  refine ⟨_, hstep, rfl, rfl, rfl, rfl, takeError_latchesUnwritten _ _, ⟨_, rfl, phasesBefore_failed _ e⟩,
    fun hg => ?_, fun hd => ?_, step_of_failed (by simpa using hadm) (by simpa using hcursor) rfl⟩
  · simp [hg]
  · simp [hd]

/-! ### The invariant -/

/-- A call that has read nothing but prefixes, of a state of the invariant. -/
structure State.InProgress (s : State) : Prop where
  wf : s.buf.wf = true
  admitted : s.buf.admitted = true
  start_le : s.p0 ≤ s.pos
  pos_le : s.pos ≤ s.buf.size
  phase : s.phase = .start
  result : s.result = none
  trail : s.trail = [.start]
  latches : s.latchesUnwritten
  seg : s.seg = none ↔ s.pos = s.p0
  text : s.text = none

theorem beginCall_latchesUnwritten (s : State) : s.beginCall.latchesUnwritten :=
  ⟨rfl, rfl, rfl, rfl, rfl, rfl, rfl, rfl, rfl, rfl⟩

theorem State.Inv.text_none {s : State} (h : s.Inv) (hret : s.returned = false) : s.text = none := by
  have ht := h.text
  unfold State.textOk at ht
  unfold State.returned at hret
  cases he : s.entryPoint with
  | decodeNext => rw [he] at ht; exact ht
  | getAssembly => rw [he] at hret; exact Option.not_isSome_iff_eq_none.mp (by simp [hret])

/-- A state of the invariant that decodes a unit decodes it in a call in progress. -/
theorem State.Inv.ready_inProgress {s : State} (h : s.Inv) (hrun : s.running) : s.ready.InProgress := by
  obtain ⟨-, -, hfail, hret, -⟩ := hrun
  have htext := h.text_none hret
  have hphase := h.phase
  cases hb : s.atBoundary with
  | true =>
    rw [ready_of_atBoundary hb]
    exact ⟨h.wf, h.admitted, le_refl _, h.pos_le, rfl, rfl, rfl, beginCall_latchesUnwritten s, by simp, htext⟩
  | false =>
    rw [ready_of_not_atBoundary hb]
    cases hp : s.phase with
    | start =>
      rw [State.phaseOk, hp] at hphase
      obtain ⟨hres, htrail, hlatch, hseg⟩ := hphase
      exact ⟨h.wf, h.admitted, h.start_le, h.pos_le, hp, hres, htrail, hlatch, hseg, htext⟩
    | complete => rw [State.atBoundary, hp] at hb; cases hb
    | failed e => exact absurd hp (hfail e)
    | _ => rw [State.phaseOk, hp] at hphase; exact hphase.elim

/-- A call in progress that takes an error shown inside the buffer, after the phases of a failing call, ends in a state
of the invariant. -/
theorem State.InProgress.takeError_inv {s : State} (h : s.InProgress) {e : Error} {w : List Phase}
    (hstart : e.start = s.p0) (hge : s.pos ≤ e.offset) (hcur : e.offset ≤ e.cursor) (hle : e.cursor ≤ s.buf.size)
    (hw : .start :: w ∈ failedTrails) : (takeError e (s.through w)).Inv where
  wf := h.wf
  admitted := h.admitted
  start_le := h.start_le.trans (hge.trans hcur)
  pos_le := hle
  phase := ⟨rfl, hstart, h.start_le.trans hge, hcur.trans hle, rfl, takeError_latchesUnwritten _ _, rfl, _, hw,
    by simp [h.trail]⟩
  text := by
    unfold State.textOk
    cases he : s.entryPoint with
    | decodeNext => simp [he, h.text]
    | getAssembly => simp [he]

theorem State.InProgress.textOk_of_kept {s t : State} (h : s.InProgress) (htext : t.text = s.text)
    (hp : ∀ e, t.phase ≠ .failed e) : t.textOk := by
  unfold State.textOk
  rw [htext, h.text]
  cases t.entryPoint with
  | decodeNext => rfl
  | getAssembly => exact hp

theorem State.InProgress.endOfStream_inv {s : State} (h : s.InProgress) {e : Error} {w : List Phase}
    (he : EndsStream s e) (hw : .start :: w ∈ failedTrails) : (takeError e (s.through w)).Inv := by
  have hcur : e.cursor = e.offset := by rw [he.eq]; rfl
  have hstart : e.start = s.p0 := by rw [he.eq]; rfl
  exact h.takeError_inv hstart he.ge hcur.ge (hcur ▸ he.le h.pos_le) hw

/-- A decode moves the cursor. -/
theorem DecodeParts.pos_lt {ps : List Part} (h : DecodeParts ps) {s t : State} (ht : runParts ps s = .ok t) :
    s.pos < t.pos := by
  obtain ⟨op, rest, rfl, hrest⟩ : ∃ op rest, ps = opcodeRead op :: rest ∧ ∀ p ∈ rest, Part.Reads p := by
    cases h <;> exact ⟨_, _, rfl, by simp [modrmRead_reads, displacementRead_reads, imm1Read_reads, imm2Read_reads]⟩
  cases hu : opcodeRead op s with
  | error e => cases (runParts_cons_error hu).symm.trans ht
  | ok u =>
    have hpos : u.pos = s.pos + 1 := opcodeRead_advances op s u hu
    rw [runParts_cons_ok hu] at ht
    rcases runParts_reads hrest u with ⟨v, hv, hk⟩ | ⟨e, v, hv, -⟩
    · cases hv.symm.trans ht
      exact Nat.lt_of_succ_le (hpos ▸ hk.pos_ge :)
    · cases hv.symm.trans ht

theorem State.InProgress.decode_inv {s t : State} (h : s.InProgress) (hd : IsDecode s (.next t)) : t.Inv := by
  obtain ⟨ps, type, width, operands, hps, hops, heq⟩ := hd
  rcases decodeWith_outcome hps type width operands s with ⟨u, hu, hk, ⟨w, hw, htrail⟩, hc⟩ | ⟨e, w, he, hw, hc⟩
  · cases heq.trans hc
    have hlt := hps.pos_lt hu
    exact {
      wf := hk.buf ▸ h.wf
      admitted := hk.buf ▸ h.admitted
      start_le := hk.p0 ▸ h.start_le.trans hk.pos_ge
      pos_le := hk.buf ▸ hk.pos_le h.pos_le
      phase := by
        refine ⟨?_, ?_, _, rfl, rfl, rfl, hops⟩
        · rw [complete_trail, htrail, h.trail]
          exact readPhases_completed hw
        · show 1 ≤ u.pos - u.p0
          have := h.start_le
          rw [hk.p0]
          omega
      text := h.textOk_of_kept hk.text fun _ he => nomatch he }
  · cases heq.trans hc
    exact h.endOfStream_inv he hw

theorem State.InProgress.prefix_inv {s t : State} (h : s.InProgress) {seg : SegmentType}
    (ht : readSegPrefix seg s = .next t) : t.Inv := by
  by_cases hr : s.pos + 1 ≤ s.buf.size
  · cases (readSegPrefix_ok hr).symm.trans ht
    have := h.start_le
    exact {
      wf := h.wf
      admitted := h.admitted
      start_le := this.trans (Nat.le_succ _)
      pos_le := hr
      phase := ⟨h.result, h.trail, h.latches, by simp; omega⟩
      text := h.textOk_of_kept rfl fun _ he => nomatch he }
  · cases (readSegPrefix_error hr).symm.trans ht
    simpa using h.endOfStream_inv (w := []) (endsStream_here s) (by decide)

theorem State.InProgress.decodeUnit_inv {s t : State} (h : s.InProgress) (ht : decodeUnit exec s = .next t) :
    t.Inv := by
  cases hd : decode s.fetch with
  | ok x =>
    rw [decodeUnit_of_ok hd] at ht
    rcases exec_cases x.1 s with ⟨seg, hseg⟩ | hdec
    · exact h.prefix_inv (hseg.symm.trans ht)
    · exact h.decode_inv (ht ▸ hdec)
  | error e =>
    cases (decodeUnit_of_error hd).symm.trans ht
    have hcur := cursor_errorOf s.p0 s.pos e
    have := extent_le_of_decode_error hd
    have := fetch_length_le h.pos_le
    exact h.takeError_inv (start_errorOf ..) (le_offset_errorOf ..) (hcur ▸ offset_errorOf_le ..) (by omega)
      (phasesBefore_failed ..)

theorem State.Inv.returnText_inv {s : State} (h : s.Inv) (hex : s.exhausted = true) : s.returnText.Inv := by
  obtain ⟨⟨hentry, hb⟩, hpos⟩ : (s.entryPoint = .getAssembly ∧ s.atBoundary = true) ∧ s.pos = s.buf.size := by
    simpa [State.exhausted] using hex
  refine ⟨h.wf, h.admitted, h.start_le, h.pos_le, h.phase, ?_⟩
  simp only [State.textOk, returnText_entryPoint, hentry, returnText_text]
  exact ⟨hpos, hb, rfl⟩

/-- Settles O3: a step from a state of the invariant changes nothing, returns the text of an exhausted stream, or
decodes a unit in a call in progress, and each ends in a state of the invariant. -/
theorem stepPreservesInvariant : Obligations.StepPreservesInvariant := by
  intro s t h hstep
  rcases step_next_cases h.admitted h.pos_le hstep with rfl | ⟨-, hex, rfl⟩ | ⟨hrun, hunit⟩
  · exact h
  · exact h.returnText_inv hex
  · exact (h.ready_inProgress hrun).decodeUnit_inv hunit

end Sys2Proof.Machine

/-! The plan of an instruction: the opcode and the fields that its meaning reads, the same for every state, and the
operands it completes with. What a completed decode writes is read off it. -/

namespace Sys2Proof.Machine

/-! ### The fields after an opcode -/

/-- The fields that follow the opcode byte in the five shapes of a decode (30_encoding.md R70). -/
inductive Fields where
  | short
  | imm (i : Imm)
  | far (off seg : Word)
  | rm (reg : BitVec 3) (e : RM)
  | rmImm (reg : BitVec 3) (e : RM) (i : Imm)

/-- An immediate field as it stands in the stream (30_encoding.md R80; 20_memory.md R55). -/
def Imm.bytes : Imm → List Byte
  | .byte b _ => [b]
  | .word v _ => wordBytes v

def Fields.bytes : Fields → List Byte
  | .short => []
  | .imm i => i.bytes
  | .far off seg => wordBytes off ++ wordBytes seg
  | .rm reg e => e.bytes reg
  | .rmImm reg e i => e.bytes reg ++ i.bytes

/-- The parts of the decode, from the opcode on. -/
def Fields.parts (op : Byte) : Fields → List Part
  | .short => [opcodeRead op]
  | .imm i => [opcodeRead op, imm1Read i]
  | .far off seg => [opcodeRead op, imm1Read (.word off .farOffset), imm2Read (.word seg .farSegment)]
  | .rm reg e => [opcodeRead op, modrmRead reg e, displacementRead e]
  | .rmImm reg e i => [opcodeRead op, modrmRead reg e, displacementRead e, imm1Read i]

theorem Fields.decodeParts (op : Byte) (f : Fields) : DecodeParts (f.parts op) := by
  cases f with
  | short => exact .short op
  | imm i => exact .imm op i
  | far off seg => exact .far op _ _
  | rm reg e => exact .rm op reg e
  | rmImm reg e i => exact .rmImm op reg e i

/-- The phases of a displacement field, none where the operand has no such field (10_state.md R23). -/
def dispPhases : RM → List Phase
  | .reg _ => []
  | .mem (.noDisp _) => []
  | .mem (.direct _) => [.displacementRead]
  | .mem (.disp8 _ _) => [.displacementRead]
  | .mem (.disp16 _ _) => [.displacementRead]

/-- The phases that the fields pass. -/
def Fields.phases : Fields → List Phase
  | .short => [.opcodeRead]
  | .imm _ => [.opcodeRead, .immediateRead]
  | .far _ _ => [.opcodeRead, .immediateRead]
  | .rm _ e => [.opcodeRead, .modrmRead] ++ dispPhases e
  | .rmImm _ e _ => [.opcodeRead, .modrmRead] ++ dispPhases e ++ [.immediateRead]

theorem Fields.phases_mem_readPhases (f : Fields) : f.phases ∈ readPhases := by
  have disp (e : RM) : dispPhases e = [] ∨ dispPhases e = [.displacementRead] := by
    match e with
    | .reg _ | .mem (.noDisp _) => exact .inl rfl
    | .mem (.direct _) | .mem (.disp8 _ _) | .mem (.disp16 _ _) => exact .inr rfl
  cases f with
  | short | imm | far => simp [Fields.phases, readPhases]
  | rm reg e | rmImm reg e i => rcases disp e with h | h <;> simp [Fields.phases, h, readPhases]

/-- The latch `disp` after an r/m operand: a register operand leaves it (10_state.md R24; log 13). -/
def dispAfter (d : Disp) : RM → Disp
  | .reg _ => d
  | .mem m => memDisp m

/-- The state after the displacement of an r/m operand. -/
def State.withDisplacement (e : RM) (s : State) : State :=
  { s with
    pos := s.pos + e.dispBytes.length
    disp := dispAfter s.disp e
    phase := (dispPhases e).getLastD s.phase
    trail := s.trail ++ dispPhases e }

/-- The state after all the fields have been read. -/
def Fields.after (op : Byte) (s : State) : Fields → State
  | .short => s.withOpcode op
  | .imm i => (s.withOpcode op).withImm1 i
  | .far off seg => ((s.withOpcode op).withImm1 (.word off .farOffset)).withImm2 (.word seg .farSegment)
  | .rm reg e => ((s.withOpcode op).withModrm reg e).withDisplacement e
  | .rmImm reg e i => (((s.withOpcode op).withModrm reg e).withDisplacement e).withImm1 i

/-- A part that succeeds ends in the state `g` gives. -/
def Part.Yields (p : Part) (g : State → State) : Prop := ∀ s t, p s = .ok t → t = g s

theorem displacementField_yields (n : Nat) (d : Disp) : Part.Yields (displacementField n d) (State.withDisp n d) :=
  fun _ _ h => eq_of_reading_ok h

theorem displacementRead_yields (e : RM) : Part.Yields (displacementRead e) (State.withDisplacement e) := by
  intro s t h
  match e with
  | .reg _ =>
    cases h
    simp [State.withDisplacement, dispPhases, dispAfter, RM.dispBytes]
  | .mem (.noDisp _) =>
    cases h
    simp [State.withDisplacement, dispPhases, dispAfter, RM.dispBytes, Mem.dispBytes, memDisp]
  | .mem (.direct _) => exact displacementField_yields 2 _ s t h
  | .mem (.disp8 _ _) => exact displacementField_yields 1 _ s t h
  | .mem (.disp16 _ _) => exact displacementField_yields 2 _ s t h

theorem runParts_nil_yields : Part.Yields (runParts []) id := fun _ _ h => (Except.ok.inj h).symm

theorem runParts_cons_yields {p : Part} {ps : List Part} {g h : State → State} (hp : Part.Yields p g)
    (hps : Part.Yields (runParts ps) h) : Part.Yields (runParts (p :: ps)) (h ∘ g) := by
  intro s u hu
  cases ht : p s with
  | error e => cases (runParts_cons_error ht).symm.trans hu
  | ok t =>
    cases hp s t ht
    exact hps _ u ((runParts_cons_ok ht).symm.trans hu)

theorem Fields.parts_yields (op : Byte) (f : Fields) : Part.Yields (runParts (f.parts op)) (f.after op ·) := by
  have opcode : Part.Yields (opcodeRead op) (State.withOpcode op) := fun _ _ h => eq_of_reading_ok h
  have modrm (reg : BitVec 3) (e : RM) : Part.Yields (modrmRead reg e) (State.withModrm reg e) :=
    fun _ _ h => eq_of_reading_ok h
  have first (i : Imm) : Part.Yields (imm1Read i) (State.withImm1 i) := fun _ _ h => eq_of_reading_ok h
  have second (i : Imm) : Part.Yields (imm2Read i) (State.withImm2 i) := fun _ _ h => eq_of_reading_ok h
  cases f with
  | short => exact runParts_cons_yields opcode runParts_nil_yields
  | imm i => exact runParts_cons_yields opcode (runParts_cons_yields (first i) runParts_nil_yields)
  | far off seg =>
    exact runParts_cons_yields opcode
      (runParts_cons_yields (first _) (runParts_cons_yields (second _) runParts_nil_yields))
  | rm reg e =>
    exact runParts_cons_yields opcode
      (runParts_cons_yields (modrm reg e) (runParts_cons_yields (displacementRead_yields e) runParts_nil_yields))
  | rmImm reg e i =>
    exact runParts_cons_yields opcode (runParts_cons_yields (modrm reg e)
      (runParts_cons_yields (displacementRead_yields e) (runParts_cons_yields (first i) runParts_nil_yields)))

/-! ### The plan of an instruction -/

/-- The offset and segment words of a far pointer. -/
def Fields.farPointer : Fields → Option (Word × Word)
  | .far off seg => some (off, seg)
  | .short | .imm _ | .rm _ _ | .rmImm _ _ _ => none

end Sys2Proof.Machine

namespace Sys2Proof

/-- The offset and segment words of a far pointer. -/
def FarForm.pointer : FarForm → Option (Word × Word)
  | .far off seg => some (off, seg)
  | .mem _ => none

/-- The offset and segment words of a far pointer. -/
def Instr.farPointer : Instr → Option (Word × Word)
  | .callf f => f.pointer
  | .jmpf f => f.pointer
  | _ => none

end Sys2Proof

namespace Sys2Proof.Machine

/-- The fields hold the immediate operand `j`: as it is, or for opcode 83 the byte it is the sign extension of
(30_encoding.md R81). -/
def Fields.HoldsImm (op : Byte) (j : Imm) : Fields → Prop
  | .short => False
  | .imm i => j = i
  | .far off seg => j = .word off .farOffset ∨ j = .word seg .farSegment
  | .rm _ _ => False
  | .rmImm _ _ i => j = i ∨ ∃ b, op = 0x83 ∧ i = .byte b .none ∧ j = sextImm b

/-- The operand is no immediate, or one that no field holds (R98, R111), or the fields hold it. -/
def Operand.HeldBy (op : Byte) (f : Fields) : Operand → Prop
  | .register _ => True
  | .memory _ => True
  | .immediate j => j.flag ∈ [.implicitOne, .escapeCode] ∨ f.HoldsImm op j

/-- What a meaning reads and completes with; of the state, its operands depend on the segment override only. -/
structure Plan where
  op : Byte
  fields : Fields
  type : InstructionType
  width : DataWidth
  operands : Option SegmentType → List Operand

def Plan.run (p : Plan) (s : State) : Result :=
  decodeWith (p.fields.parts p.op) p.type p.width (p.operands s.seg) s

/-- `p` is the plan of `i`: its encoding and its meaning. -/
structure Plan.Of (p : Plan) (i : Instr) : Prop where
  encode_eq : encode i = p.op :: p.fields.bytes
  exec_eq : ∀ s, exec i s = p.run s
  farPointer_eq : p.fields.farPointer = i.farPointer
  held : ∀ seg, ∀ o ∈ p.operands seg, o.HeldBy p.op p.fields

section
variable {op : Byte} {f : Fields} (w : OpWidth) (seg : Option SegmentType)

@[simp] theorem rmOperand_heldBy (e : RM) : (rmOperand w seg e).HeldBy op f := by cases e <;> trivial

@[simp] theorem regOperand_heldBy (g : BitVec 3) : (regOperand w g).HeldBy op f := trivial

@[simp] theorem segOperand_heldBy (r : SegmentType) : (segOperand r).HeldBy op f := trivial

@[simp] theorem register_heldBy (r : RegisterType) : (Operand.register r).HeldBy op f := trivial

@[simp] theorem memOperand_heldBy (m : Mem) : (memOperand seg m).HeldBy op f := trivial

@[simp] theorem moffsOperand_heldBy (a : Word) : (moffsOperand seg a).HeldBy op f := trivial

@[simp] theorem countOperand_heldBy (n : ShiftCount) : (countOperand n).HeldBy op f := by
  cases n with
  | one => exact .inl (by decide)
  | cl => trivial

@[simp] theorem escImm_heldBy (code : BitVec 6) : (Operand.immediate (escImm code)).HeldBy op f :=
  .inl (by simp [escImm, Imm.flag])

@[simp] theorem imm_heldBy (i : Imm) : (Operand.immediate i).HeldBy op (.imm i) := .inr rfl

@[simp] theorem rmImm_heldBy (reg : BitVec 3) (e : RM) (i : Imm) :
    (Operand.immediate i).HeldBy op (.rmImm reg e i) := .inr (.inl rfl)

@[simp] theorem sextImm_heldBy (reg : BitVec 3) (e : RM) (b : Byte) :
    (Operand.immediate (sextImm b)).HeldBy 0x83#8 (.rmImm reg e (.byte b .none)) := .inr (.inr ⟨b, rfl, rfl, rfl⟩)

@[simp] theorem farOffset_heldBy (off sg : Word) :
    (Operand.immediate (.word off .farOffset)).HeldBy op (.far off sg) := .inr (.inl rfl)

@[simp] theorem farSegment_heldBy (off sg : Word) :
    (Operand.immediate (.word sg .farSegment)).HeldBy op (.far off sg) := .inr (.inr rfl)

end

theorem dataImm_bytes (d : Data) : (dataImm d).bytes = d.bytes := by cases d <;> rfl

section
variable {i : Instr} {op : Byte} {type : InstructionType} {width : DataWidth} {slot : BitVec 3}

theorem short_plan (henc : encode i = [op]) (operands : Option SegmentType → List Operand)
    (hexec : ∀ s, exec i s = decodeShort op type width (operands s.seg) s) (hfar : none = i.farPointer)
    (hops : ∀ seg, ∀ o ∈ operands seg, o.HeldBy op .short) : ∃ p : Plan, p.Of i :=
  ⟨⟨op, .short, type, width, operands⟩, henc, hexec, hfar, hops⟩

theorem imm_plan {im : Imm} (henc : encode i = op :: im.bytes) (operands : Option SegmentType → List Operand)
    (hexec : ∀ s, exec i s = decodeImm op im type width (operands s.seg) s) (hfar : none = i.farPointer)
    (hops : ∀ seg, ∀ o ∈ operands seg, o.HeldBy op (.imm im)) : ∃ p : Plan, p.Of i :=
  ⟨⟨op, .imm im, type, width, operands⟩, henc, hexec, hfar, hops⟩

theorem rm_plan {reg : BitVec 3} {e : RM} (henc : encode i = op :: e.bytes reg)
    (operands : Option SegmentType → List Operand)
    (hexec : ∀ s, exec i s = decodeRM op reg e type width (operands s.seg) s) (hfar : none = i.farPointer)
    (hops : ∀ seg, ∀ o ∈ operands seg, o.HeldBy op (.rm reg e)) : ∃ p : Plan, p.Of i :=
  ⟨⟨op, .rm reg e, type, width, operands⟩, henc, hexec, hfar, hops⟩

theorem rmImm_plan {reg : BitVec 3} {e : RM} {im : Imm} (henc : encode i = op :: (e.bytes reg ++ im.bytes))
    (operands : Option SegmentType → List Operand)
    (hexec : ∀ s, exec i s = decodeRMImm op reg e im type width (operands s.seg) s) (hfar : none = i.farPointer)
    (hops : ∀ seg, ∀ o ∈ operands seg, o.HeldBy op (.rmImm reg e im)) : ∃ p : Plan, p.Of i :=
  ⟨⟨op, .rmImm reg e im, type, width, operands⟩, henc, hexec, hfar, hops⟩

/-! ### The shapes that instructions share -/

theorem bare_plan (henc : encode i = [op]) (hexec : ∀ s, exec i s = decodeShort op type width [] s)
    (hfar : none = i.farPointer) : ∃ p : Plan, p.Of i :=
  short_plan henc (fun _ => []) hexec hfar (by simp)

/-- A relative displacement or an interrupt type, alone. -/
theorem loneImm_plan {im : Imm} (henc : encode i = op :: im.bytes)
    (hexec : ∀ s, exec i s = decodeImm op im type width [.immediate im] s) (hfar : none = i.farPointer) :
    ∃ p : Plan, p.Of i :=
  imm_plan henc (fun _ => [.immediate im]) hexec hfar (by simp)

theorem base10_plan (henc : encode i = [op, 0x0A]) (hexec : ∀ s, exec i s = decodeBase10 op type s)
    (hfar : none = i.farPointer) : ∃ p : Plan, p.Of i :=
  imm_plan (im := .byte 0x0A .none) henc (fun _ => []) hexec hfar (by simp)

theorem unary_plan {w : OpWidth} {e : RM} (henc : encode i = (0xF6 + w.bit) :: e.bytes slot)
    (hexec : ∀ s, exec i s = decodeUnary slot type w e s) (hfar : none = i.farPointer) : ∃ p : Plan, p.Of i :=
  rm_plan henc (fun seg => [rmOperand w seg e]) hexec hfar (by simp)

theorem shift_plan {n : ShiftCount} {w : OpWidth} {e : RM} (henc : encode i = n.opcode w :: e.bytes slot)
    (hexec : ∀ s, exec i s = decodeShift slot type n w e s) (hfar : none = i.farPointer) : ∃ p : Plan, p.Of i :=
  rm_plan henc (fun seg => [rmOperand w seg e, countOperand n]) hexec hfar (by simp)

theorem gm_plan {g : BitVec 3} {m : Mem} (henc : encode i = op :: (RM.mem m).bytes g)
    (hexec : ∀ s, exec i s = decodeGM op type g m s) (hfar : none = i.farPointer) : ∃ p : Plan, p.Of i :=
  rm_plan henc (fun seg => [regOperand .word g, memOperand seg m]) hexec hfar (by simp)

theorem alu_plan {k : Byte} (f : AluForm) (henc : encode i = f.encode k slot)
    (hexec : ∀ s, exec i s = decodeAlu k slot type f s) (hfar : none = i.farPointer) : ∃ p : Plan, p.Of i := by
  cases f with
  | eg w e g => exact rm_plan henc (fun seg => [rmOperand w seg e, regOperand w g]) hexec hfar (by simp)
  | ge w g e => exact rm_plan henc (fun seg => [regOperand w g, rmOperand w seg e]) hexec hfar (by simp)
  | accI d =>
    exact imm_plan (dataImm_bytes d ▸ henc) (fun _ => [regOperand d.width 0, .immediate (dataImm d)]) hexec hfar
      (by simp)
  | eI e d =>
    exact rmImm_plan (dataImm_bytes d ▸ henc) (fun seg => [rmOperand d.width seg e, .immediate (dataImm d)]) hexec hfar
      (by simp)
  | eI82 e b =>
    exact rmImm_plan (im := .byte b .none) henc (fun seg => [rmOperand .byte seg e, .immediate (.byte b .none)]) hexec
      hfar (by simp)
  | eIs e b =>
    exact rmImm_plan (im := .byte b .none) henc (fun seg => [rmOperand .word seg e, .immediate (sextImm b)]) hexec hfar
      (by simp [AluForm.opcode])

theorem incDec_plan {k : Byte} (f : IncDecForm) (henc : encode i = f.encode k slot)
    (hexec : ∀ s, exec i s = decodeIncDec k slot type f s) (hfar : none = i.farPointer) : ∃ p : Plan, p.Of i := by
  cases f with
  | reg16 r => exact short_plan henc (fun _ => [regOperand .word r]) hexec hfar (by simp)
  | rm w e => exact rm_plan henc (fun seg => [rmOperand w seg e]) hexec hfar (by simp)

theorem ret_plan {k : Byte} (f : RetForm) (henc : encode i = f.encode k) (hexec : ∀ s, exec i s = decodeRet k type f s)
    (hfar : none = i.farPointer) : ∃ p : Plan, p.Of i := by
  cases f with
  | plain => exact bare_plan henc hexec hfar
  | adjust n => exact loneImm_plan (im := .word n .stackAdjust) henc hexec hfar

theorem far_plan {k : Byte} (f : FarForm) (henc : encode i = f.encode k slot)
    (hexec : ∀ s, exec i s = decodeFar k slot type f s)
    (hfar : f.pointer = i.farPointer) : ∃ p : Plan, p.Of i := by
  cases f with
  | far off sg =>
    exact ⟨⟨k, .far off sg, type, .none,
        fun _ => [.immediate (.word sg .farSegment), .immediate (.word off .farOffset)]⟩,
      henc, hexec, hfar, by simp⟩
  | mem m => exact rm_plan henc (fun seg => [memOperand seg m]) hexec hfar (by simp)

end

/-! ### Each instruction's plan -/

theorem mov_plan (f : MovForm) : ∃ p : Plan, p.Of (.mov f) := by
  cases f with
  | eg w e g => exact rm_plan rfl (fun seg => [rmOperand w seg e, regOperand w g]) (fun _ => rfl) rfl (by simp)
  | ge w g e => exact rm_plan rfl (fun seg => [regOperand w g, rmOperand w seg e]) (fun _ => rfl) rfl (by simp)
  | eI e d =>
    exact rmImm_plan (dataImm_bytes d ▸ rfl) (fun seg => [rmOperand d.width seg e, .immediate (dataImm d)])
      (fun _ => rfl) rfl (by simp)
  | regI r d =>
    exact imm_plan (dataImm_bytes d ▸ rfl) (fun _ => [regOperand d.width r, .immediate (dataImm d)]) (fun _ => rfl) rfl
      (by simp)
  | accMoffs w a =>
    exact imm_plan rfl (fun seg => [regOperand w 0, moffsOperand seg a]) (fun _ => rfl) rfl (by simp)
  | moffsAcc w a =>
    exact imm_plan rfl (fun seg => [moffsOperand seg a, regOperand w 0]) (fun _ => rfl) rfl (by simp)
  | ewS e r => exact rm_plan rfl (fun seg => [rmOperand .word seg e, segOperand r]) (fun _ => rfl) rfl (by simp)
  | sEw r e => exact rm_plan rfl (fun seg => [segOperand r, rmOperand .word seg e]) (fun _ => rfl) rfl (by simp)

theorem push_plan (f : StackForm) : ∃ p : Plan, p.Of (.push f) := by
  cases f with
  | reg16 r => exact short_plan rfl (fun _ => [regOperand .word r]) (fun _ => rfl) rfl (by simp)
  | sreg r => exact short_plan rfl (fun _ => [segOperand r]) (fun _ => rfl) rfl (by simp)
  | rm e => exact rm_plan rfl (fun seg => [rmOperand .word seg e]) (fun _ => rfl) rfl (by simp)

theorem pop_plan (f : StackForm) : ∃ p : Plan, p.Of (.pop f) := by
  cases f with
  | reg16 r => exact short_plan rfl (fun _ => [regOperand .word r]) (fun _ => rfl) rfl (by simp)
  | sreg r => exact short_plan rfl (fun _ => [segOperand r]) (fun _ => rfl) rfl (by simp)
  | rm e => exact rm_plan rfl (fun seg => [rmOperand .word seg e]) (fun _ => rfl) rfl (by simp)

theorem xchg_plan (f : XchgForm) : ∃ p : Plan, p.Of (.xchg f) := by
  cases f with
  | eg w e g => exact rm_plan rfl (fun seg => [rmOperand w seg e, regOperand w g]) (fun _ => rfl) rfl (by simp)
  | ax r => exact short_plan rfl (fun _ => [.register .AX, regOperand .word r]) (fun _ => rfl) rfl (by simp)

theorem inPort_plan (f : PortForm) : ∃ p : Plan, p.Of (.inPort f) := by
  cases f with
  | imm w b =>
    exact imm_plan rfl (fun _ => [regOperand w 0, .immediate (.byte b .portNumber)]) (fun _ => rfl) rfl (by simp)
  | dx w => exact short_plan rfl (fun _ => [regOperand w 0, .register .DX]) (fun _ => rfl) rfl (by simp)

theorem outPort_plan (f : PortForm) : ∃ p : Plan, p.Of (.outPort f) := by
  cases f with
  | imm w b =>
    exact imm_plan rfl (fun _ => [.immediate (.byte b .portNumber), regOperand w 0]) (fun _ => rfl) rfl (by simp)
  | dx w => exact short_plan rfl (fun _ => [.register .DX, regOperand w 0]) (fun _ => rfl) rfl (by simp)

theorem test_plan (f : TestForm) : ∃ p : Plan, p.Of (.test f) := by
  cases f with
  | eg w e g => exact rm_plan rfl (fun seg => [rmOperand w seg e, regOperand w g]) (fun _ => rfl) rfl (by simp)
  | accI d =>
    exact imm_plan (dataImm_bytes d ▸ rfl) (fun _ => [regOperand d.width 0, .immediate (dataImm d)]) (fun _ => rfl) rfl
      (by simp)
  | eI e d =>
    exact rmImm_plan (dataImm_bytes d ▸ rfl) (fun seg => [rmOperand d.width seg e, .immediate (dataImm d)])
      (fun _ => rfl) rfl (by simp)

theorem call_plan (f : CallForm) : ∃ p : Plan, p.Of (.call f) := by
  cases f with
  | rel16 d => exact loneImm_plan rfl (fun _ => rfl) rfl
  | rm e => exact rm_plan rfl (fun seg => [rmOperand .word seg e]) (fun _ => rfl) rfl (by simp)

theorem jmp_plan (f : JmpForm) : ∃ p : Plan, p.Of (.jmp f) := by
  cases f with
  | rel8 d => exact loneImm_plan rfl (fun _ => rfl) rfl
  | rel16 d => exact loneImm_plan rfl (fun _ => rfl) rfl
  | rm e => exact rm_plan rfl (fun seg => [rmOperand .word seg e]) (fun _ => rfl) rfl (by simp)

theorem esc_plan (code : BitVec 6) (e : RM) : ∃ p : Plan, p.Of (.esc code e) :=
  rm_plan rfl (fun seg => [.immediate (escImm code), rmOperand .word seg e]) (fun _ => rfl) rfl (by simp)

/-- WHAT `exec` DOES, THE SAME FOR EVERY STATE: the byte of a segment override sets `seg`, and every other instruction
runs its plan. -/
theorem exec_plan (i : Instr) : (∃ seg, ∀ s, exec i s = readSegPrefix seg s) ∨ ∃ p : Plan, p.Of i := by
  cases i with
  | prefixES | prefixCS | prefixSS | prefixDS => exact .inl ⟨_, fun _ => rfl⟩
  | mov f => exact .inr (mov_plan f)
  | push f => exact .inr (push_plan f)
  | pop f => exact .inr (pop_plan f)
  | xchg f => exact .inr (xchg_plan f)
  | inPort f => exact .inr (inPort_plan f)
  | outPort f => exact .inr (outPort_plan f)
  | test f => exact .inr (test_plan f)
  | call f => exact .inr (call_plan f)
  | jmp f => exact .inr (jmp_plan f)
  | callf f | jmpf f => exact .inr (far_plan f rfl (fun _ => rfl) rfl)
  | esc code e => exact .inr (esc_plan code e)
  | add f | adc f | sub f | sbb f | cmp f | and f | or f | xor f => exact .inr (alu_plan f rfl (fun _ => rfl) rfl)
  | inc f | dec f => exact .inr (incDec_plan f rfl (fun _ => rfl) rfl)
  | ret f | retf f => exact .inr (ret_plan f rfl (fun _ => rfl) rfl)
  | lea | lds | les => exact .inr (gm_plan rfl (fun _ => rfl) rfl)
  | neg | mul | imul | div | idiv | not => exact .inr (unary_plan rfl (fun _ => rfl) rfl)
  | shl | shr | sar | rol | ror | rcl | rcr => exact .inr (shift_plan rfl (fun _ => rfl) rfl)
  | jo | jno | jb | jae | je | jne | jbe | ja | js | jns | jp | jnp | jl | jge | jle | jg | loop | loopz | loopnz | jcxz
  | int =>
    exact .inr (loneImm_plan rfl (fun _ => rfl) rfl)
  | aam | aad => exact .inr (base10_plan rfl (fun _ => rfl) rfl)
  | xlat | lahf | sahf | pushf | popf | aaa | daa | aas | das | cbw | cwd | rep | repne | movsb | movsw | cmpsb | cmpsw
  | scasb | scasw | lodsb | lodsw | stosb | stosw | int3 | into | iret | clc | cmc | stc | cld | std | cli | sti | hlt
  | wait | lock | nop =>
    exact .inr (bare_plan rfl (fun _ => rfl) rfl)

end Sys2Proof.Machine

/-! What a completed decode leaves unchanged, and what its latches hold of the bytes read. -/

namespace Sys2Proof.Machine

/-! ### A completed decode -/

theorem readSegPrefix_not_complete {seg : SegmentType} {s t : State} (h : readSegPrefix seg s = .next t) :
    t.phase ≠ .complete := by
  by_cases hr : s.pos + 1 ≤ s.buf.size
  · cases (readSegPrefix_ok hr).symm.trans h
    exact nofun
  · cases (readSegPrefix_error hr).symm.trans h
    exact nofun

theorem Plan.run_complete {p : Plan} {s t : State} (h : p.run s = .next t) (hc : t.phase = .complete) :
    t = complete p.type p.width (p.operands s.seg) (p.fields.after p.op s) := by
  rcases decodeWith_cases (p.fields.parts p.op) p.type p.width (p.operands s.seg) s with
    ⟨u, hu, hnext⟩ | ⟨e, u, -, hnext⟩
  · cases hnext.symm.trans h
    rw [p.fields.parts_yields p.op s u hu]
  · cases hnext.symm.trans h
    cases hc

/-- An instruction whose meaning completes a call has a plan, and what the plan gives is the state after it. -/
theorem exec_complete {i : Instr} {s t : State} (h : exec i s = .next t) (hc : t.phase = .complete) :
    ∃ p : Plan, p.Of i ∧ t = complete p.type p.width (p.operands s.seg) (p.fields.after p.op s) := by
  rcases exec_plan i with ⟨seg, hseg⟩ | ⟨p, hp⟩
  · exact absurd hc (readSegPrefix_not_complete ((hseg s).symm.trans h))
  · exact ⟨p, hp, Plan.run_complete ((hp.exec_eq s).symm.trans h) hc⟩

/-! ### The state after the fields -/

namespace Fields

variable (op : Byte) (s : State) (f : Fields)

@[simp] theorem after_buf : (f.after op s).buf = s.buf := by cases f <;> rfl

@[simp] theorem after_mode : (f.after op s).mode = s.mode := by cases f <;> rfl

@[simp] theorem after_entryPoint : (f.after op s).entryPoint = s.entryPoint := by cases f <;> rfl

@[simp] theorem after_seg : (f.after op s).seg = s.seg := by cases f <;> rfl

@[simp] theorem after_lines : (f.after op s).lines = s.lines := by cases f <;> rfl

@[simp] theorem after_op : (f.after op s).op = op := by cases f <;> rfl

@[simp] theorem after_opOffset : (f.after op s).opOffset = s.pos := by cases f <;> rfl

@[simp] theorem after_entry : (f.after op s).entry = primary op := by cases f <;> rfl

@[simp] theorem after_trail : (f.after op s).trail = s.trail ++ f.phases := by
  cases f <;> simp [after, phases, State.withOpcode, State.withModrm, State.withDisplacement, State.withImm1,
    State.withImm2]

variable {op s f}

/-- The fields have this ModRM byte and displacement. -/
def HasRM (reg : BitVec 3) (e : RM) (f : Fields) : Prop := f = .rm reg e ∨ ∃ i, f = .rmImm reg e i

/-- The fields have a ModRM byte, or neither its phase nor a displacement's is passed. -/
theorem hasRM_or (f : Fields) :
    (∃ reg e, f.HasRM reg e) ∨ (.modrmRead ∉ f.phases ∧ .displacementRead ∉ f.phases) := by
  cases f with
  | short | imm | far => exact .inr (by simp [phases])
  | rm reg e => exact .inl ⟨reg, e, .inl rfl⟩
  | rmImm reg e i => exact .inl ⟨reg, e, .inr ⟨i, rfl⟩⟩

/-- The latches of the ModRM byte and the displacement are those of the r/m operand. -/
theorem HasRM.after {reg : BitVec 3} {e : RM} (h : f.HasRM reg e) :
    (f.after op s).mod = e.mod ∧ (f.after op s).reg = reg ∧ (f.after op s).rm = e.rm ∧
      (f.after op s).modrmOffset = s.pos + 1 ∧ (f.after op s).disp = dispAfter s.disp e := by
  rcases h with rfl | ⟨i, rfl⟩ <;> exact ⟨rfl, rfl, rfl, rfl, rfl⟩

theorem HasRM.modrmRead_mem {reg : BitVec 3} {e : RM} (h : f.HasRM reg e) : .modrmRead ∈ f.phases := by
  rcases h with rfl | ⟨i, rfl⟩ <;> simp [phases]

theorem HasRM.displacementRead_mem {reg : BitVec 3} {e : RM} (h : f.HasRM reg e) :
    .displacementRead ∈ f.phases ↔ .displacementRead ∈ dispPhases e := by
  rcases h with rfl | ⟨i, rfl⟩ <;> simp [phases]

theorem after_of_not_modrmRead (h : .modrmRead ∉ f.phases) :
    (f.after op s).mod = s.mod ∧ (f.after op s).reg = s.reg ∧ (f.after op s).rm = s.rm ∧
      (f.after op s).modrmOffset = s.modrmOffset ∧ (f.after op s).disp = s.disp := by
  cases f with
  | short | imm | far => exact ⟨rfl, rfl, rfl, rfl, rfl⟩
  | rm | rmImm => simp [phases] at h

/-- Without a displacement field a register operand leaves `disp`, and a memory operand clears it. -/
theorem dispAfter_of_not_displacementRead {e : RM} (h : .displacementRead ∉ dispPhases e) (d : Disp) :
    (e.mod = 3 ∧ dispAfter d e = d) ∨ (e.mod ≠ 3 ∧ dispAfter d e = .noDisp) := by
  match e with
  | .reg _ => exact .inl ⟨rfl, rfl⟩
  | .mem (.noDisp _) => exact .inr ⟨by simp [RM.mod, Mem.mod], rfl⟩
  | .mem (.direct _) | .mem (.disp8 _ _) | .mem (.disp16 _ _) => simp [dispPhases] at h

theorem after_disp_of_not_displacementRead (h : .displacementRead ∉ f.phases) :
    (f.after op s).disp = s.disp ∨ (f.after op s).disp = .noDisp := by
  rcases f.hasRM_or with ⟨reg, e, hrm⟩ | ⟨hm, -⟩
  · obtain ⟨-, -, -, -, hdisp⟩ := hrm.after (op := op) (s := s)
    rw [hrm.displacementRead_mem] at h
    rw [hdisp]
    exact (dispAfter_of_not_displacementRead h s.disp).imp And.right And.right
  · obtain ⟨-, -, -, -, hdisp⟩ := after_of_not_modrmRead (op := op) (s := s) hm
    exact .inl hdisp

theorem after_of_not_immediateRead (h : .immediateRead ∉ f.phases) :
    (f.after op s).imm1 = s.imm1 ∧ (f.after op s).imm2 = s.imm2 := by
  cases f with
  | short | rm => exact ⟨rfl, rfl⟩
  | imm | far | rmImm => simp [phases] at h

theorem after_imm2_of_not_far (h : f.farPointer = none) : (f.after op s).imm2 = s.imm2 := by
  cases f with
  | short | imm | rm | rmImm => rfl
  | far => cases h

end Fields

theorem farPointer_eq_none {i : Instr} (h : ∀ o g, i ≠ .callf (.far o g) ∧ i ≠ .jmpf (.far o g)) :
    i.farPointer = none := by
  cases i with
  | callf f =>
    cases f with
    | far o g => exact absurd rfl (h o g).1
    | mem m => rfl
  | jmpf f =>
    cases f with
    | far o g => exact absurd rfl (h o g).2
    | mem m => rfl
  | _ => rfl

/-- Settles O28: a completed call ends in the state its plan gives, whose fields are read off the plan's shape. -/
theorem completedDecodeFrame : Obligations.CompletedDecodeFrame := by
  intro i s t h hc
  obtain ⟨p, hp, rfl⟩ := exec_complete h hc
  have notMem {ph : Phase} (h : ph ∉ p.fields.phases ++ [.complete]) : ph ∉ p.fields.phases :=
    fun hm => h (List.mem_append_left _ hm)
  refine ⟨by simp, ⟨p.fields.phases ++ [.complete], by simp, readPhases_completed p.fields.phases_mem_readPhases,
    fun hm => Fields.after_of_not_modrmRead (notMem hm),
    fun hd => Fields.after_disp_of_not_displacementRead (notMem hd),
    fun hi => Fields.after_of_not_immediateRead (notMem hi)⟩, fun hfar => ?_, fun he => by simp [he], fun he => ?_⟩
  · exact Fields.after_imm2_of_not_far (hp.farPointer_eq.trans (farPointer_eq_none hfar))
  · exact ⟨_, rfl, by simp [he]⟩

/-! ### The bytes in the buffer -/

/-- The bytes stand in the buffer from offset `q` on. -/
def Memory.Holds (B : Memory) (q : Nat) : List Byte → Prop
  | [] => True
  | b :: bs => B.read q = some b ∧ B.Holds (q + 1) bs

theorem Memory.holds_append {B : Memory} {q : Nat} {bs cs : List Byte} :
    B.Holds q (bs ++ cs) ↔ B.Holds q bs ∧ B.Holds (q + bs.length) cs := by
  induction bs generalizing q with
  | nil => simp [Memory.Holds]
  | cons b bs ih => simp [Memory.Holds, ih, and_assoc, Nat.add_assoc, Nat.add_comm 1]

theorem Memory.holds_slice {B : Memory} {q n : Nat} (h : q + n ≤ B.size) : B.Holds q (B.slice q n) := by
  induction n generalizing q with
  | zero => trivial
  | succ n ih =>
    rw [slice_succ n (by omega)]
    exact ⟨if_pos (by omega), ih (by omega)⟩

theorem holds_fetch {s : State} (h : s.pos ≤ s.buf.size) : s.buf.Holds s.pos s.fetch :=
  Memory.holds_slice (by omega)

theorem Memory.Holds.readAt {B : Memory} {q : Nat} {i : Imm} (h : B.Holds q i.bytes) : i.readAt B q := by
  cases i with
  | byte b f => exact h.1
  | word v f => exact ⟨h.1, h.2.1⟩

/-! ### What the latches hold -/

namespace Fields

variable {op : Byte} {s : State} {f : Fields}

/-- The bytes that `modrmRead` and `displacementRead` read. -/
theorem HasRM.holds {B : Memory} {q : Nat} {reg : BitVec 3} {e : RM} (h : f.HasRM reg e) (hb : B.Holds q f.bytes) :
    B.Holds q (e.bytes reg) := by
  rcases h with rfl | ⟨i, rfl⟩
  · exact hb
  · exact (Memory.holds_append.mp hb).1

/-- The displacement latch holds the field read, a byte sign-extended (30_encoding.md R75, R77). -/
theorem disp_holds {B : Memory} {q : Nat} {e : RM} {d : Disp} (hd : .displacementRead ∈ dispPhases e)
    (hb : B.Holds q e.dispBytes) :
    (e.mod = 1 ∧ ∃ b, B.read q = some b ∧ dispAfter d e = .disp8 (b.signExtend 16)) ∨
    (e.mod ≠ 1 ∧ ∃ lo hi, B.read q = some lo ∧ B.read (q + 1) = some hi ∧ dispAfter d e = .disp16 (hi ++ lo)) := by
  match e with
  | .reg _ | .mem (.noDisp _) => simp [dispPhases] at hd
  | .mem (.disp8 _ b) => exact .inl ⟨rfl, b, hb.1, rfl⟩
  | .mem (.direct v) | .mem (.disp16 _ v) =>
    exact .inr ⟨by simp [RM.mod, Mem.mod], _, _, hb.1, hb.2.1, congrArg Disp.disp16 (wordOfBytes_bytes v).symm⟩

theorem dispBytes_length (e : RM) :
    (if .displacementRead ∈ dispPhases e then (if e.mod = 1 then 1 else 2) else 0) = e.dispBytes.length := by
  match e with
  | .reg _ | .mem (.noDisp _) | .mem (.direct _) | .mem (.disp8 _ _) | .mem (.disp16 _ _) => rfl

/-- The bytes of the ModRM byte and the displacement, which an immediate follows. -/
def rmBytes : Fields → Nat
  | .short | .imm _ | .far _ _ => 0
  | .rm _ e | .rmImm _ e _ => 1 + e.dispBytes.length

theorem HasRM.rmBytes_eq {reg : BitVec 3} {e : RM} (h : f.HasRM reg e) : f.rmBytes = 1 + e.dispBytes.length := by
  rcases h with rfl | ⟨i, rfl⟩ <;> rfl

theorem rmBytes_of_not_modrmRead (h : .modrmRead ∉ f.phases) : f.rmBytes = 0 := by
  cases f with
  | short | imm | far => rfl
  | rm | rmImm => simp [phases] at h

/-- The ModRM latches are the fields of the byte after the opcode (30_encoding.md R72). -/
theorem after_modrm (hb : s.buf.Holds (s.pos + 1) f.bytes) (hm : .modrmRead ∈ f.phases) :
    (f.after op s).modrmOffset = s.pos + 1 ∧ ∃ m, s.buf.read (s.pos + 1) = some m ∧ (f.after op s).mod = modField m ∧
      (f.after op s).reg = regField m ∧ (f.after op s).rm = rmField m := by
  rcases f.hasRM_or with ⟨reg, e, hrm⟩ | ⟨hn, -⟩
  · obtain ⟨hmod, hreg, hrmf, hoff, -⟩ := hrm.after (op := op) (s := s)
    exact ⟨hoff, modrmByte e.mod reg e.rm, (hrm.holds hb).1, by simp [hmod], by simp [hreg], by simp [hrmf]⟩
  · exact absurd hm hn

/-- The displacement latch holds the field after the ModRM byte (30_encoding.md R75, R77). -/
theorem after_disp (hb : s.buf.Holds (s.pos + 1) f.bytes) (hd : .displacementRead ∈ f.phases) :
    .modrmRead ∈ f.phases ∧
    (((f.after op s).mod = 1 ∧ ∃ b, s.buf.read (s.pos + 2) = some b ∧
        (f.after op s).disp = .disp8 (b.signExtend 16)) ∨
      ((f.after op s).mod ≠ 1 ∧ ∃ lo hi, s.buf.read (s.pos + 2) = some lo ∧ s.buf.read (s.pos + 2 + 1) = some hi ∧
        (f.after op s).disp = .disp16 (hi ++ lo))) := by
  rcases f.hasRM_or with ⟨reg, e, hrm⟩ | ⟨-, hn⟩
  · obtain ⟨hmod, -, -, -, hdisp⟩ := hrm.after (op := op) (s := s)
    rw [hrm.displacementRead_mem] at hd
    rw [hmod, hdisp]
    exact ⟨hrm.modrmRead_mem, disp_holds hd (hrm.holds hb).2⟩
  · exact absurd hd hn

theorem after_disp_of_memory (hm : .modrmRead ∈ f.phases) (hd : .displacementRead ∉ f.phases)
    (h3 : (f.after op s).mod ≠ 3) : (f.after op s).disp = .noDisp := by
  rcases f.hasRM_or with ⟨reg, e, hrm⟩ | ⟨hn, -⟩
  · obtain ⟨hmod, -, -, -, hdisp⟩ := hrm.after (op := op) (s := s)
    rw [hrm.displacementRead_mem] at hd
    rw [hmod] at h3
    rcases dispAfter_of_not_displacementRead hd s.disp with ⟨h, -⟩ | ⟨-, h⟩
    · exact absurd h h3
    · exact hdisp.trans h
  · exact absurd hm hn

/-- Where an immediate field begins, computed from the phases `w` of the call and the latches of the ModRM byte. -/
theorem immediate_offset {w : List Phase} (hm : .modrmRead ∈ w ↔ .modrmRead ∈ f.phases)
    (hd : .displacementRead ∈ w ↔ .displacementRead ∈ f.phases) :
    (if .modrmRead ∈ w then (f.after op s).modrmOffset + 1 else (f.after op s).opOffset + 1) +
      (if .displacementRead ∈ w then (if (f.after op s).mod = 1 then 1 else 2) else 0) =
    s.pos + 1 + f.rmBytes := by
  rcases f.hasRM_or with ⟨reg, e, hrm⟩ | ⟨hm', hd'⟩
  · obtain ⟨hmod, -, -, hoff, -⟩ := hrm.after (op := op) (s := s)
    rw [if_pos (hm.mpr hrm.modrmRead_mem), hoff, hmod, hrm.rmBytes_eq, ← dispBytes_length]
    simp only [hd, hrm.displacementRead_mem]
    omega
  · simp [hm, hm', hd, hd', rmBytes_of_not_modrmRead hm']

/-- The first immediate latch holds the field after the ModRM byte and the displacement (30_encoding.md R80). -/
theorem after_imm1 (hb : s.buf.Holds (s.pos + 1) f.bytes) (hi : .immediateRead ∈ f.phases)
    (hfar : f.farPointer = none) :
    (f.after op s).imm1.readAt s.buf (s.pos + 1 + f.rmBytes) ∧
      (f.after op s).pos = s.pos + 1 + f.rmBytes + (f.after op s).imm1.size := by
  cases f with
  | short => simp [phases] at hi
  | imm i => exact ⟨Memory.Holds.readAt hb, rfl⟩
  | far off seg => cases hfar
  | rm reg e =>
    match e with
    | .reg _ | .mem (.noDisp _) | .mem (.direct _) | .mem (.disp8 _ _) | .mem (.disp16 _ _) =>
      simp [phases, dispPhases] at hi
  | rmImm reg e i =>
    have himm := (Memory.holds_append.mp hb).2
    rw [RM.bytes, List.length_cons, Nat.add_comm e.dispBytes.length] at himm
    refine ⟨himm.readAt, ?_⟩
    show s.pos + 1 + 1 + e.dispBytes.length + i.size = s.pos + 1 + (1 + e.dispBytes.length) + i.size
    omega

/-- A far pointer's latches hold the offset word and the segment word after it (30_encoding.md R84). -/
theorem after_far {off seg : Word} (hb : s.buf.Holds (s.pos + 1) f.bytes) (hfar : f.farPointer = some (off, seg)) :
    .modrmRead ∉ f.phases ∧ (f.after op s).imm1 = .word off .farOffset ∧ (f.after op s).imm2 = .word seg .farSegment ∧
      (f.after op s).imm1.readAt s.buf (s.pos + 1) ∧ (f.after op s).imm2.readAt s.buf (s.pos + 1 + 2) ∧
      (f.after op s).pos = s.pos + 1 + 4 := by
  cases f with
  | far off' seg' =>
    cases hfar
    obtain ⟨hoff, hseg⟩ := Memory.holds_append.mp hb
    exact ⟨by simp [phases], rfl, rfl, Memory.Holds.readAt (i := .word off .farOffset) hoff,
      Memory.Holds.readAt (i := .word seg .farSegment) hseg, rfl⟩
  | short | imm | rm | rmImm => cases hfar

/-- An immediate operand that the fields hold is in a latch. -/
theorem HoldsImm.latched {j : Imm} (h : f.HoldsImm op j) :
    .immediateRead ∈ f.phases ∧ (j = (f.after op s).imm1 ∨ (f.farPointer ≠ none ∧ j = (f.after op s).imm2) ∨
      ∃ b, op = 0x83 ∧ (f.after op s).imm1 = .byte b .none ∧ j = .word (b.signExtend 16) .none) := by
  cases f with
  | short | rm => exact h.elim
  | imm i => exact ⟨by simp [phases], .inl h⟩
  | far off seg =>
    exact ⟨by simp [phases], h.imp_right fun hseg => .inl ⟨by simp [farPointer], hseg⟩⟩
  | rmImm reg e i =>
    refine ⟨by simp [phases], h.imp_right fun ⟨b, hop, hi, hj⟩ => .inr ⟨b, hop, hi, hj⟩⟩

end Fields

/-! ### The opcodes of a far pointer -/

theorem recFar_ok {c : Word → Word → Instr} {op : Byte} {bs rest : List Byte} {i : Instr}
    (h : recFar c op bs = .ok (i, rest)) : ∃ off seg, i = c off seg := by
  match bs, h with
  | _ :: _ :: _ :: _ :: _, h => cases h; exact ⟨_, _, rfl⟩

theorem farPointer_of_decode {op : Byte} {bs rest : List Byte} {i : Instr} (h : decode (op :: bs) = .ok (i, rest))
    (hop : op ∈ [0x9A#8, 0xEA#8]) : ∃ off seg, i.farPointer = some (off, seg) := by
  rcases List.mem_pair.mp hop with rfl | rfl
  · obtain ⟨off, seg, rfl⟩ := recFar_ok (op := 0x9A) (c := fun o g => .callf (.far o g)) h
    exact ⟨off, seg, rfl⟩
  · obtain ⟨off, seg, rfl⟩ := recFar_ok (op := 0xEA) (c := fun o g => .jmpf (.far o g)) h
    exact ⟨off, seg, rfl⟩

theorem opcode_of_farPointer {op : Byte} {bs : List Byte} {i : Instr} (h : encode i = op :: bs)
    (hfar : i.farPointer ≠ none) : op ∈ [0x9A#8, 0xEA#8] := by
  cases i with
  | callf f =>
    cases f with
    | far off seg => cases h; simp [FarForm.opcode]
    | mem m => exact absurd rfl hfar
  | jmpf f =>
    cases f with
    | far off seg => cases h; simp [FarForm.opcode]
    | mem m => exact absurd rfl hfar
  | _ => exact absurd rfl hfar

/-! ### The latches after a step -/

/-- A running step that completes a call runs the plan of the instruction whose bytes stand at the cursor. -/
theorem step_complete {s t : State} (hrun : s.running) (h : step s = .next t) (hc : t.phase = .complete) :
    ∃ (i : Instr) (rest : List Byte) (p : Plan), p.Of i ∧ decode s.fetch = .ok (i, rest) ∧
      s.ready.buf.Holds s.ready.pos (p.op :: p.fields.bytes) ∧
      t = complete p.type p.width (p.operands s.ready.seg) (p.fields.after p.op s.ready) := by
  rw [step_of_running hrun] at h
  obtain ⟨-, hpos, -, -, -⟩ := hrun
  cases hd : decode s.fetch with
  | error e =>
    cases (decodeUnit_of_error (s := s.ready) (by rwa [ready_fetch])).symm.trans h
    cases hc
  | ok x =>
    obtain ⟨i, rest⟩ := x
    rw [decodeUnit_of_ok (s := s.ready) (by rwa [ready_fetch])] at h
    obtain ⟨p, hp, ht⟩ := exec_complete h hc
    have hfetch : s.ready.buf.Holds s.ready.pos s.ready.fetch := holds_fetch (by simpa using hpos)
    rw [ready_fetch, (decode_ok hd).2, hp.encode_eq] at hfetch
    exact ⟨i, rest, p, hp, rfl, (Memory.holds_append.mp hfetch).1, ht⟩

/-- Settles O29: after a completed step the latches are those of the plan whose bytes stand at the cursor. -/
theorem latchesHoldBytesRead : Obligations.LatchesHoldBytesRead := by
  intro s t hrun h hc
  obtain ⟨i, rest, p, hp, hd, hb, rfl⟩ := step_complete hrun h hc
  have hfar : p.op ∈ [0x9A#8, 0xEA#8] ↔ p.fields.farPointer ≠ none := by
    rw [hp.farPointer_eq]
    refine ⟨fun hop => ?_, opcode_of_farPointer hp.encode_eq⟩
    rw [(decode_ok hd).2, hp.encode_eq] at hd
    obtain ⟨off, seg, hi⟩ := farPointer_of_decode hd hop
    simp [hi]
  obtain ⟨hop, hbytes⟩ := hb
  have hphases : (complete p.type p.width (p.operands s.ready.seg) (p.fields.after p.op s.ready)).trail.drop
      s.ready.trail.length = p.fields.phases ++ [.complete] := by simp
  intro w
  have hw : w = p.fields.phases ++ [.complete] := hphases
  have hm : .modrmRead ∈ w ↔ .modrmRead ∈ p.fields.phases := by simp [hw]
  have hdisp : .displacementRead ∈ w ↔ .displacementRead ∈ p.fields.phases := by simp [hw]
  have himm : .immediateRead ∈ w ↔ .immediateRead ∈ p.fields.phases := by simp [hw]
  clear_value w
  simp only [complete_buf, complete_mod, complete_reg, complete_rm, complete_modrmOffset, complete_op,
    complete_opOffset, complete_entry, complete_disp, complete_imm1, complete_imm2, complete_pos, Fields.after_op,
    Fields.after_buf, Fields.after_entry, hfar]
  refine ⟨by simp, by simpa using hop, trivial, fun h => ?_, fun h h1 => ?_, fun h h1 => ?_,
    fun h hn => Fields.after_disp_of_memory (hm.mp h) (mt hdisp.mpr hn),
    fun h hn => ?_, fun h => ?_, fun x j hx hj hflag => ?_⟩
  · obtain ⟨hoff, m, hread, hfields⟩ := Fields.after_modrm (op := p.op) hbytes (hm.mp h)
    exact ⟨by simpa using hoff, m, hoff ▸ hread, hfields⟩
  · obtain ⟨hmr, ⟨-, hd8⟩ | ⟨hd16, -⟩⟩ := Fields.after_disp (op := p.op) hbytes (hdisp.mp h)
    · rwa [if_pos (hm.mpr hmr), (Fields.after_modrm hbytes hmr).1]
    · exact absurd h1 hd16
  · obtain ⟨hmr, ⟨hd8, -⟩ | ⟨-, hd16⟩⟩ := Fields.after_disp (op := p.op) hbytes (hdisp.mp h)
    · exact absurd hd8 h1
    · rwa [if_pos (hm.mpr hmr), (Fields.after_modrm hbytes hmr).1]
  · have hlatch := Fields.after_imm1 (op := p.op) hbytes (himm.mp h) (not_not.mp hn)
    rw [← Fields.immediate_offset (op := p.op) hm hdisp] at hlatch
    exact hlatch
  · obtain ⟨⟨off, seg⟩, hptr⟩ := Option.ne_none_iff_exists'.mp h
    obtain ⟨hmr, hlatches⟩ := Fields.after_far (op := p.op) hbytes hptr
    rw [if_neg (mt hm.mp hmr), Fields.after_opOffset]
    exact ⟨off, seg, hlatches⟩
  · cases hx
    obtain ⟨hread, hlatch⟩ := ((hp.held _ _ hj).resolve_left hflag).latched
    exact ⟨himm.mpr hread, hlatch⟩

end Sys2Proof.Machine

/-! The mode and the texts it shapes have no effect on decode, and the tables of registers and forms. -/

namespace Sys2Proof.Machine

/-! ### States that differ in the mode, the lines and the text -/

/-- `s` with another mode, other lines and another text. -/
def State.retext (mode : OutputValueMode) (lines : List String) (text : Option (CallResult String)) (s : State) :
    State :=
  { s with mode := mode, lines := lines, text := text }

theorem sameDecode_retext {s : State} {mode : OutputValueMode} {lines : List String}
    {text : Option (CallResult String)} (h : s.text.isSome = text.isSome) : s.sameDecode (s.retext mode lines text) :=
  ⟨rfl, h⟩

theorem State.sameDecode.exists_retext {s t : State} (h : s.sameDecode t) :
    ∃ mode lines text, t = s.retext mode lines text ∧ s.text.isSome = text.isSome := by
  obtain ⟨heq, htext⟩ := h
  refine ⟨t.mode, t.lines, t.text, ?_, htext⟩
  cases s; cases t
  simp only [State.mk.injEq, State.retext] at heq ⊢
  tauto

/-- A part ends the same way, in states that again differ in the mode and the texts only. -/
def Part.Blind (p : Part) : Prop :=
  ∀ s t, s.sameDecode t →
    (∃ u v, p s = .ok u ∧ p t = .ok v ∧ u.sameDecode v) ∨
      ∃ e u v, p s = .error (e, u) ∧ p t = .error (e, v) ∧ u.sameDecode v

/-- A read is blind if what it reads into is. -/
theorem reading_blind {n : Nat} {before : List Phase} {next : State → Nat → State}
    (h : ∀ s mode lines text pos, next (s.retext mode lines text) pos = (next s pos).retext mode lines text)
    (htext : ∀ s pos, (next s pos).text = s.text) :
    Part.Blind fun s => reading n (s.through before) (next s) := by
  intro s t hst
  obtain ⟨mode, lines, text, rfl, hsome⟩ := hst.exists_retext
  by_cases hr : s.pos + n ≤ s.buf.size
  · refine .inl ⟨_, _, reading_ok (s := s.through before) _ hr,
      reading_ok (s := (s.retext mode lines text).through before) _ hr, ?_⟩
    show (next s (s.pos + n)).sameDecode (next (s.retext mode lines text) (s.pos + n))
    rw [h]
    exact sameDecode_retext (by rwa [htext])
  · exact .inr ⟨_, _, _, reading_error (s := s.through before) _ hr,
      reading_error (s := (s.retext mode lines text).through before) _ hr, rfl, hsome⟩

theorem reading_blind_nil {n : Nat} {next : State → Nat → State}
    (h : ∀ s mode lines text pos, next (s.retext mode lines text) pos = (next s pos).retext mode lines text)
    (htext : ∀ s pos, (next s pos).text = s.text) : Part.Blind fun s => reading n s (next s) := by
  simpa only [through_nil] using reading_blind (before := []) h htext

theorem opcodeRead_blind (op : Byte) : Part.Blind (opcodeRead op) :=
  reading_blind_nil (fun _ _ _ _ _ => rfl) fun _ _ => rfl

theorem modrmRead_blind (reg : BitVec 3) (e : RM) : Part.Blind (modrmRead reg e) :=
  reading_blind_nil (fun _ _ _ _ _ => rfl) fun _ _ => rfl

theorem displacementField_blind (n : Nat) (d : Disp) : Part.Blind (displacementField n d) :=
  reading_blind_nil (fun _ _ _ _ _ => rfl) fun _ _ => rfl

theorem imm1Read_blind (i : Imm) : Part.Blind (imm1Read i) :=
  reading_blind (fun _ _ _ _ _ => rfl) fun _ _ => rfl

theorem imm2Read_blind (i : Imm) : Part.Blind (imm2Read i) :=
  reading_blind_nil (fun _ _ _ _ _ => rfl) fun _ _ => rfl

theorem displacementRead_blind (e : RM) : Part.Blind (displacementRead e) := by
  match e with
  | .reg _ => exact fun s t h => .inl ⟨s, t, rfl, rfl, h⟩
  | .mem (.noDisp _) =>
    intro s t h
    obtain ⟨mode, lines, text, rfl, hsome⟩ := h.exists_retext
    exact .inl ⟨_, _, rfl, rfl, rfl, hsome⟩
  | .mem (.direct _) | .mem (.disp16 _ _) => exact displacementField_blind 2 _
  | .mem (.disp8 _ _) => exact displacementField_blind 1 _

theorem runParts_blind {ps : List Part} (h : ∀ p ∈ ps, Part.Blind p) : Part.Blind (runParts ps) := by
  induction ps with
  | nil => exact fun s t hst => .inl ⟨s, t, rfl, rfl, hst⟩
  | cons p ps ih =>
    intro s t hst
    rcases h p (List.mem_cons_self ..) s t hst with ⟨u, v, hu, hv, huv⟩ | ⟨e, u, v, hu, hv, huv⟩
    · rw [runParts_cons_ok hu, runParts_cons_ok hv]
      exact ih (fun q hq => h q (List.mem_cons_of_mem _ hq)) u v huv
    · exact .inr ⟨e, u, v, runParts_cons_error hu, runParts_cons_error hv, huv⟩

theorem DecodeParts.blind {ps : List Part} (h : DecodeParts ps) : Part.Blind (runParts ps) := by
  apply runParts_blind
  cases h <;> simp [opcodeRead_blind, modrmRead_blind, displacementRead_blind, imm1Read_blind, imm2Read_blind]

/-! ### A step -/

theorem takeError_sameDecode (e : Error) {s t : State} (h : s.sameDecode t) :
    (takeError e s).sameDecode (takeError e t) := by
  obtain ⟨mode, lines, text, rfl, hsome⟩ := h.exists_retext
  refine ⟨rfl, ?_⟩
  rw [takeError_text, takeError_text]
  show _ = Option.isSome (if s.entryPoint = .getAssembly then _ else _)
  split
  · rfl
  · exact hsome

theorem complete_sameDecode (type : InstructionType) (width : DataWidth) (operands : List Operand) {s t : State}
    (h : s.sameDecode t) : (complete type width operands s).sameDecode (complete type width operands t) := by
  obtain ⟨mode, lines, text, rfl, hsome⟩ := h.exists_retext
  exact ⟨rfl, hsome⟩

theorem decodeWith_related {ps : List Part} (hps : DecodeParts ps) (type : InstructionType) (width : DataWidth)
    (operands : List Operand) {s t : State} (h : s.sameDecode t) :
    related State.sameDecode (decodeWith ps type width operands s) (decodeWith ps type width operands t) := by
  rcases hps.blind s t h with ⟨u, v, hu, hv, huv⟩ | ⟨e, u, v, hu, hv, huv⟩
  · simp only [decodeWith, hu, hv]
    exact complete_sameDecode type width operands huv
  · simp only [decodeWith, hu, hv]
    exact takeError_sameDecode e huv

theorem readSegPrefix_related (seg : SegmentType) {s t : State} (h : s.sameDecode t) :
    related State.sameDecode (readSegPrefix seg s) (readSegPrefix seg t) := by
  obtain ⟨mode, lines, text, rfl, hsome⟩ := h.exists_retext
  by_cases hr : s.pos + 1 ≤ s.buf.size
  · rw [readSegPrefix_ok hr, readSegPrefix_ok (s := s.retext mode lines text) hr]
    exact ⟨rfl, hsome⟩
  · rw [readSegPrefix_error hr, readSegPrefix_error (s := s.retext mode lines text) hr]
    exact takeError_sameDecode _ h

theorem exec_related (i : Instr) {s t : State} (h : s.sameDecode t) :
    related State.sameDecode (exec i s) (exec i t) := by
  rcases exec_plan i with ⟨seg, hseg⟩ | ⟨p, hp⟩
  · rw [hseg, hseg]
    exact readSegPrefix_related seg h
  · have hoverride : t.seg = s.seg := by
      obtain ⟨mode, lines, text, rfl, -⟩ := h.exists_retext
      rfl
    rw [hp.exec_eq, hp.exec_eq, Plan.run, Plan.run, hoverride]
    exact decodeWith_related (p.fields.decodeParts p.op) p.type p.width _ h

theorem decodeUnit_related {s t : State} (h : s.sameDecode t) :
    related State.sameDecode (decodeUnit exec s) (decodeUnit exec t) := by
  obtain ⟨mode, lines, text, rfl, hsome⟩ := h.exists_retext
  have hfetch : (s.retext mode lines text).fetch = s.fetch := rfl
  cases hd : decode s.fetch with
  | ok x =>
    rw [decodeUnit_of_ok hd, decodeUnit_of_ok (hfetch ▸ hd)]
    exact exec_related x.1 h
  | error e =>
    rw [decodeUnit_of_error hd, decodeUnit_of_error (hfetch ▸ hd)]
    exact takeError_sameDecode _ ⟨rfl, hsome⟩

theorem ready_sameDecode {s t : State} (h : s.sameDecode t) : s.ready.sameDecode t.ready := by
  obtain ⟨mode, lines, text, rfl, hsome⟩ := h.exists_retext
  have hb : (s.retext mode lines text).atBoundary = s.atBoundary := rfl
  cases hs : s.atBoundary with
  | true =>
    rw [ready_of_atBoundary hs, ready_of_atBoundary (hb.trans hs)]
    exact ⟨rfl, hsome⟩
  | false =>
    rw [ready_of_not_atBoundary hs, ready_of_not_atBoundary (hb.trans hs)]
    exact h

/-- What a step looks at to choose its branch is the same. -/
theorem State.sameDecode.branch {s t : State} (h : s.sameDecode t) :
    t.buf = s.buf ∧ t.pos = s.pos ∧ t.phase = s.phase ∧ t.returned = s.returned ∧ t.exhausted = s.exhausted := by
  obtain ⟨mode, lines, text, rfl, hsome⟩ := h.exists_retext
  exact ⟨rfl, rfl, rfl, by simp only [State.returned, State.retext, hsome], rfl⟩

theorem returnText_sameDecode {s t : State} (h : s.sameDecode t) : s.returnText.sameDecode t.returnText := by
  obtain ⟨mode, lines, text, rfl, -⟩ := h.exists_retext
  exact ⟨rfl, rfl⟩

/-- Settles O6: both states take the same branch of a step, and in each the outcomes are related. -/
theorem modeDoesNotAffectDecode : Obligations.ModeDoesNotAffectDecode := by
  intro s t h
  obtain ⟨hbuf, hpos, hphase, hret, hex⟩ := h.branch
  cases hadm : s.buf.admitted with
  | false =>
    rw [step_of_not_admitted hadm, step_of_not_admitted (hbuf ▸ hadm)]
    rfl
  | true =>
    have hadm' : t.buf.admitted = true := hbuf ▸ hadm
    rcases Nat.lt_or_ge s.buf.size s.pos with hlt | hle
    · rw [step_of_past_end hadm hlt, step_of_past_end hadm' (by rwa [hbuf, hpos])]
      rfl
    · have hle' : t.pos ≤ t.buf.size := by rwa [hbuf, hpos]
      by_cases hfailed : ∃ e, s.phase = .failed e
      · obtain ⟨e, he⟩ := hfailed
        rw [step_of_failed hadm hle he, step_of_failed hadm' hle' (hphase.trans he)]
        rfl
      · have hfail : ∀ e, s.phase ≠ .failed e := not_exists.mp hfailed
        have hfail' : ∀ e, t.phase ≠ .failed e := hphase ▸ hfail
        cases hr : s.returned with
        | true =>
          rw [step_of_returned hadm hle hfail hr, step_of_returned hadm' hle' hfail' (hret.trans hr)]
          exact h
        | false =>
          cases he : s.exhausted with
          | true =>
            rw [step_of_exhausted hadm hle hfail hr he,
              step_of_exhausted hadm' hle' hfail' (hret.trans hr) (hex.trans he)]
            exact returnText_sameDecode h
          | false =>
            rw [step_of_running ⟨hadm, hle, hfail, hr, he⟩,
              step_of_running ⟨hadm', hle', hfail', hret.trans hr, hex.trans he⟩]
            exact decodeUnit_related (ready_sameDecode h)

/-! ### The tables of registers and forms -/

/-- A word register reads as its two halves (10_state.md R39). -/
theorem word_halves (v : Word) : RegisterValue.word v = .word (highByte v ++ lowByte v) :=
  congrArg RegisterValue.word (wordOfBytes_bytes v).symm

/-- Settles O12: the tables by evaluation, and for each of the four byte pairs the word register they halve. -/
theorem registerAndFormTables : Obligations.RegisterAndFormTables := by
  refine ⟨by decide, by decide, by decide, by decide, by decide, fun r k => ?_⟩
  have hk : k = 0 ∨ k = 1 ∨ k = 2 ∨ k = 3 := by revert k; decide
  rcases hk with rfl | rfl | rfl | rfl
  · exact ⟨_, _, rfl, rfl, word_halves r.ax⟩
  · exact ⟨_, _, rfl, rfl, word_halves r.cx⟩
  · exact ⟨_, _, rfl, rfl, word_halves r.dx⟩
  · exact ⟨_, _, rfl, rfl, word_halves r.bx⟩

end Sys2Proof.Machine

/-! That a step writes neither the buffer nor an input, and that a meaning without room for its bytes takes the end of
the stream. -/

namespace Sys2Proof.Machine

/-! ### The inputs of a call -/

/-- The inputs of `t` are those of `s` (10_state.md R21; 47_renderer.md R305, R306). -/
structure SameInputs (s t : State) : Prop where
  buf : t.buf = s.buf
  label : t.label = s.label
  mode : t.mode = s.mode
  entryPoint : t.entryPoint = s.entryPoint

theorem SameInputs.trans {s t u : State} (h : SameInputs s t) (k : SameInputs t u) : SameInputs s u :=
  ⟨k.buf.trans h.buf, k.label.trans h.label, k.mode.trans h.mode, k.entryPoint.trans h.entryPoint⟩

theorem ReadsOnly.sameInputs {n : Nat} {s t : State} (h : ReadsOnly n s t) : SameInputs s t :=
  ⟨h.buf, h.label, h.mode, h.entryPoint⟩

theorem ready_sameInputs (s : State) : SameInputs s s.ready := by
  cases hb : s.atBoundary with
  | true => rw [ready_of_atBoundary hb]; exact ⟨rfl, rfl, rfl, rfl⟩
  | false => rw [ready_of_not_atBoundary hb]; exact ⟨rfl, rfl, rfl, rfl⟩

/-- A unit of the stream, whether its meaning runs or its error is taken, leaves the inputs. -/
theorem decodeUnit_sameInputs {s t : State} (h : decodeUnit exec s = .next t) : SameInputs s t := by
  cases hd : decode s.fetch with
  | ok x =>
    obtain ⟨u, hu, hr⟩ := exec_readsOnly x.1 s
    cases hu.symm.trans ((decodeUnit_of_ok hd).symm.trans h)
    exact hr.sameInputs
  | error e =>
    cases (decodeUnit_of_error hd).symm.trans h
    exact ⟨rfl, rfl, rfl, rfl⟩

/-- A step that is not refused is taken in the domain (60_exceptions.md R328). -/
theorem admitted_and_pos_le_of_step_next {s t : State} (h : step s = .next t) :
    s.buf.admitted = true ∧ s.pos ≤ s.buf.size := by
  cases hadm : s.buf.admitted with
  | false => cases (step_of_not_admitted hadm).symm.trans h
  | true => exact ⟨rfl, not_lt.mp fun hlt => nomatch (step_of_past_end hadm hlt).symm.trans h⟩

theorem step_sameInputs {s t : State} (h : step s = .next t) : SameInputs s t := by
  obtain ⟨hadm, hpos⟩ := admitted_and_pos_le_of_step_next h
  rcases step_next_cases hadm hpos h with rfl | ⟨-, -, rfl⟩ | ⟨-, hunit⟩
  · exact ⟨rfl, rfl, rfl, rfl⟩
  · exact ⟨rfl, rfl, rfl, rfl⟩
  · exact (ready_sameInputs s).trans (decodeUnit_sameInputs hunit)

/-- Settles O7: a step changes nothing, sets the text, or decodes a unit, and each leaves the inputs. -/
theorem stepWritesNoInput : Obligations.StepWritesNoInput := by
  intro s t h
  obtain ⟨hbuf, hlabel, hmode, hentry⟩ := step_sameInputs h
  exact ⟨hbuf, fun a => by rw [hbuf], hlabel, hmode, hentry⟩

/-! ### A meaning without room -/

/-- A decode whose bytes are not all in the buffer takes the end of the stream: had it read them all, the cursor would
stand past the end. -/
theorem DecodesBytes.endsStream {s : State} {bytes : List Byte} {r : Result} (h : DecodesBytes s bytes r)
    (hpos : s.pos ≤ s.buf.size) (hroom : ¬ s.pos + bytes.length ≤ s.buf.size) :
    ∃ e w, EndsStream s e ∧ .start :: w ∈ failedTrails ∧ r = .next (takeError e (s.through w)) := by
  obtain ⟨parts, type, width, operands, hparts, hadv, rfl⟩ := h
  refine (decodeWith_outcome hparts type width operands s).resolve_left ?_
  rintro ⟨t, ht, hk, -, -⟩
  exact hroom (hadv s t ht ▸ hk.pos_le hpos)

theorem exec_endsStream {s : State} {i : Instr} (hpos : s.pos ≤ s.buf.size) (hroom : ¬ s.hasRoom i) :
    ∃ e w, EndsStream s e ∧ .start :: w ∈ failedTrails ∧ exec i s = .next (takeError e (s.through w)) := by
  rcases exec_reads_encode i s with ⟨seg, hlen, hexec⟩ | hdec
  · rw [State.hasRoom, hlen] at hroom
    exact ⟨_, [], endsStream_here s, by decide, by rw [hexec, readSegPrefix_error hroom, through_nil]⟩
  · exact hdec.endsStream hpos hroom

/-- Settles O20: the prefix bytes and the decodes without room take the end of the stream where the field that is cut
begins. -/
theorem execWithoutRoomTakesEndOfStream : Obligations.ExecWithoutRoomTakesEndOfStream := by
  intro s i hpos hroom
  obtain ⟨e, w, he, hw, hexec⟩ := exec_endsStream hpos hroom
  rw [he.eq] at hexec
  exact ⟨e.offset, w, he.ge, he.le hpos, hw, hexec⟩

end Sys2Proof.Machine

/-! What a memory operand names, and where an interrupt vector stands. -/

namespace Sys2Proof.Machine

/-! ### Memory operands -/

theorem effectiveAddress_toNat (r : Registers8086) (m : MemRef) :
    (effectiveAddress r m).toNat =
      ((r.baseValue m.ea.base).toNat + (r.baseValue m.ea.index).toNat + m.disp.value.toNat) % 2 ^ 16 := by
  simp [effectiveAddress, BitVec.toNat_add]

/-- DIRECT has neither base nor index. -/
theorem effectiveAddress_direct (r : Registers8086) {m : MemRef} (h : m.ea = .DIRECT) :
    effectiveAddress r m = m.disp.value := by
  simp [effectiveAddress, h, EAForm.base, EAForm.index, Registers8086.baseValue]

/-- The default segment is SS for the forms with BP as base, and DS for the others. -/
theorem defaultSegment_eq (f : EAForm) :
    defaultSegment f = if f ∈ [EAForm.BP_SI, .BP_DI, .BP] then .SS else .DS := by
  cases f <;> rfl

theorem segmentOf_override {m : MemRef} {x : SegmentType} (h : m.seg = some x) : segmentOf m = x := by
  rw [segmentOf, h, Option.getD_some]

theorem segmentOf_default {m : MemRef} (h : m.seg = none) :
    segmentOf m = if m.ea ∈ [EAForm.BP_SI, .BP_DI, .BP] then .SS else .DS := by
  rw [segmentOf, h, Option.getD_none, defaultSegment_eq]

/-! ### Interrupt vectors -/

theorem vectorWords_placed_iff {wordAt : Nat → Word} {n : Byte} {v : InterruptVector} :
    (∀ p ∈ vectorWords n v, wordAt p.1 = p.2) ↔ readVector wordAt n = v := by
  obtain ⟨off, seg⟩ := v
  simp [vectorWords, readVector]

/-- The words of vector `n` stand in the four bytes from `4 n` on. -/
theorem vectorWords_bounds {n : Byte} {v : InterruptVector} {p : Nat × Word} (h : p ∈ vectorWords n v) :
    4 * n.toNat ≤ p.1 ∧ p.1 + 2 ≤ 4 * n.toNat + 4 := by
  have hp : p.1 = 4 * n.toNat ∨ p.1 = 4 * n.toNat + 2 := by
    rcases List.mem_pair.mp h with rfl | rfl
    · exact .inl rfl
    · exact .inr rfl
  omega

theorem vectorWords_in_table {n : Byte} {v : InterruptVector} {p : Nat × Word} (h : p ∈ vectorWords n v) :
    p.1 + 2 ≤ vectorTableBytes := by
  obtain ⟨-, hle⟩ := vectorWords_bounds h
  have hn : n.toNat < 256 := n.isLt
  show p.1 + 2 ≤ 0x400
  omega

theorem vectorWords_disjoint {m n : Byte} (hne : m ≠ n) {u v : InterruptVector} {p q : Nat × Word}
    (hp : p ∈ vectorWords n v) (hq : q ∈ vectorWords m u) : p.1 + 2 ≤ q.1 ∨ q.1 + 2 ≤ p.1 := by
  have := vectorWords_bounds hp
  have := vectorWords_bounds hq
  have hnum : m.toNat ≠ n.toNat := fun h => hne (BitVec.eq_of_toNat_eq h)
  omega

/-- Settles O56: the vectors by the four bytes each has to itself, the operands by the address modulo 2^16 and the
default segments. -/
theorem memoryOperandAddress : Obligations.MemoryOperandAddress := by
  refine ⟨fun wordAt n v => ⟨rfl, vectorWords_placed_iff, fun p => vectorWords_in_table,
    fun m u hne p hp q hq => vectorWords_disjoint hne hp hq, rfl⟩, rfl, rfl, fun r m =>
    ⟨effectiveAddress_toNat r m, effectiveAddress_direct r, fun x => segmentOf_override, fun hnone => ⟨?_, ?_⟩, rfl⟩⟩
  · exact fun hbp => by rw [segmentOf_default hnone, if_pos hbp]
  · exact fun hbp => by rw [segmentOf_default hnone, if_neg hbp]

end Sys2Proof.Machine

/-! That decoding inverts encoding: each recipe reads back the bytes of its operands, whatever follows them. -/

namespace Sys2Proof

/-! ### The recipes read back their operands -/

section
variable {op : Byte} {rest : List Byte} {e : RM} {x : Mem} {d : Data}

/-- The byte that a ModRM recipe reads first is that of the operand and the `reg` field. -/
@[simp] theorem readByte_rm_bytes (n : Nat) (k : Byte → Decoder) (g : BitVec 3) :
    readByte n k (e.bytes g ++ rest) = k (modrmByte e.mod g e.rm) (e.dispBytes ++ rest) := rfl

theorem recEG_bytes (c : OpWidth → RM → BitVec 3 → Instr) (he : e.wellFormed = true) (g : BitVec 3) :
    recEG c op (e.bytes g ++ rest) = .ok (c (opWidth op) e g, rest) := by
  simp [recEG, readRM_bytes he, done]

theorem recGE_bytes (c : OpWidth → BitVec 3 → RM → Instr) (he : e.wellFormed = true) (g : BitVec 3) :
    recGE c op (e.bytes g ++ rest) = .ok (c (opWidth op) g e, rest) := by
  simp [recGE, readRM_bytes he, done]

theorem readMemOnly_bytes (hx : x.wellFormed = true) (g : BitVec 3) (k : Mem → Decoder) :
    readMemOnly (modrmByte x.mod g x.rm) k (x.dispBytes ++ rest) = k x rest := by
  have hmod : modField (modrmByte x.mod g x.rm) ≠ 3 := by
    rw [modField_modrmByte]; cases x <;> simp [Mem.mod]
  rw [readMemOnly, if_neg hmod]
  exact readMem_bytes hx g _ rest

theorem recGM_bytes (c : BitVec 3 → Mem → Instr) (hx : x.wellFormed = true) (g : BitVec 3) :
    recGM c op ((RM.mem x).bytes g ++ rest) = .ok (c g x, rest) := by
  simp [recGM, RM.mod, RM.rm, RM.dispBytes, readMemOnly_bytes hx, done]

theorem recEwS_bytes (he : e.wellFormed = true) (s : SegmentType) :
    recEwS op (e.bytes s.reg ++ rest) = .ok (.mov (.ewS e s), rest) := by
  cases s <;> simp [recEwS, readRM_bytes he, done, SegmentType.reg, SegmentType.code, segOfCode]

theorem recSEw_bytes (he : e.wellFormed = true) {s : SegmentType} (hs : s ≠ .CS) :
    recSEw op (e.bytes s.reg ++ rest) = .ok (.mov (.sEw s e), rest) := by
  cases s <;> simp [recSEw, readRM_bytes he, done, SegmentType.reg, SegmentType.code, segOfCode] at hs ⊢

theorem recEsc_bytes (he : e.wellFormed = true) (g : BitVec 3) :
    recEsc op (e.bytes g ++ rest) = .ok (.esc (opReg3 op ++ g) e, rest) := by
  simp [recEsc, readRM_bytes he, done]

theorem recAccI_bytes (c : Data → Instr) (hd : d.width = opWidth op) :
    recAccI c op (d.bytes ++ rest) = .ok (c d, rest) := by
  rw [recAccI, ← hd]
  exact readData_bytes d 1 _ rest

theorem recRegI_bytes (hd : (if op.getLsbD 3 then OpWidth.word else .byte) = d.width) :
    recRegI op (d.bytes ++ rest) = .ok (.mov (.regI (opReg3 op) d), rest) := by
  rw [recRegI, hd]
  exact readData_bytes d 1 _ rest

@[simp] theorem readWord_bytes (n : Nat) (k : Word → Decoder) (v : Word) :
    readWord n k (wordBytes v ++ rest) = k v rest := by
  simp [readWord, wordBytes]

theorem recWord_bytes (c : Word → Instr) (v : Word) : recWord c op (wordBytes v ++ rest) = .ok (c v, rest) := by
  simp [recWord, done]

theorem recMoffs_bytes (c : OpWidth → Word → Instr) (v : Word) :
    recMoffs c op (wordBytes v ++ rest) = .ok (c (opWidth op) v, rest) := by
  simp [recMoffs, done]

theorem recFar_bytes (c : Word → Word → Instr) (off seg : Word) :
    recFar c op (wordBytes off ++ wordBytes seg ++ rest) = .ok (c off seg, rest) := by
  simp [recFar, done]

/-! ### The groups -/

/-- A group runs the slot that the `reg` field names (30_encoding.md R89). -/
theorem group_bytes {slots : List (Option (Byte → Byte → Decoder))} {slot : Byte → Byte → Decoder} {g : BitVec 3}
    (hs : slots.getD g.toNat none = some slot) :
    group slots op (e.bytes g ++ rest) = slot op (modrmByte e.mod g e.rm) (e.dispBytes ++ rest) := by
  simp only [group, readByte_rm_bytes, regField_modrmByte, hs]

theorem slotE_bytes {slots : List (Option (Byte → Byte → Decoder))} {g : BitVec 3} (c : OpWidth → RM → Instr)
    (hs : slots.getD g.toNat none = some (slotE c)) (he : e.wellFormed = true) :
    group slots op (e.bytes g ++ rest) = .ok (c (opWidth op) e, rest) := by
  simp [group_bytes hs, slotE, readRM_bytes he, done]

theorem slotM_bytes {slots : List (Option (Byte → Byte → Decoder))} {g : BitVec 3} (c : Mem → Instr)
    (hs : slots.getD g.toNat none = some (slotM c)) (hx : x.wellFormed = true) :
    group slots op ((RM.mem x).bytes g ++ rest) = .ok (c x, rest) := by
  simp [group_bytes hs, slotM, RM.mod, RM.rm, RM.dispBytes, readMemOnly_bytes hx, done]

theorem slotEI_bytes {slots : List (Option (Byte → Byte → Decoder))} {g : BitVec 3} (c : RM → Data → Instr)
    (hs : slots.getD g.toNat none = some (slotEI c)) (he : e.wellFormed = true) (hd : d.width = opWidth op) :
    group slots op (e.bytes g ++ d.bytes ++ rest) = .ok (c e d, rest) := by
  simp [List.append_assoc, group_bytes hs, slotEI, readRM_bytes he, ← hd, readData_bytes, done]

theorem slotEByte_bytes {slots : List (Option (Byte → Byte → Decoder))} {g : BitVec 3} (c : RM → Byte → Instr)
    (hs : slots.getD g.toNat none = some (slotEByte c)) (he : e.wellFormed = true) (b : Byte) :
    group slots op (e.bytes g ++ [b] ++ rest) = .ok (c e b, rest) := by
  simp [List.append_assoc, group_bytes hs, slotEByte, readRM_bytes he, readByte, done]

end

/-! ### The instructions -/

/-- What `decode` does with the opcode byte: the map's decoder reads the rest. -/
theorem decode_cons (op : Byte) {d : OpDecoder} (h : opcodeMap.getD op.toNat unknown = d) (bs : List Byte) :
    decode (op :: bs) = d op bs := by
  rw [decode, h]

/-- Both opcodes of a form with a w bit, `k` for Byte and `k + 1` for Word, have decoder `d` (30_encoding.md R71). -/
def OpcodePair (k : Byte) (d : OpDecoder) : Prop :=
  ∀ w : OpWidth, opcodeMap.getD (k + w.bit).toNat unknown = d ∧ opWidth (k + w.bit) = w

theorem opcodePair_of {k : Byte} {d : OpDecoder}
    (hb : opcodeMap.getD (k + 0).toNat unknown = d ∧ opWidth (k + 0) = .byte)
    (hw : opcodeMap.getD (k + 1).toNat unknown = d ∧ opWidth (k + 1) = .word) : OpcodePair k d := by
  intro w
  cases w with
  | byte => exact hb
  | word => exact hw

section
variable (k : Byte) {rest : List Byte} {e : RM} {g : BitVec 3}

theorem decode_eg (c : OpWidth → RM → BitVec 3 → Instr) (h : OpcodePair k (recEG c)) (he : e.wellFormed = true)
    (w : OpWidth) : decode ((k + w.bit) :: (e.bytes g ++ rest)) = .ok (c w e g, rest) := by
  obtain ⟨hd, hw⟩ := h w
  rw [decode_cons _ hd, recEG_bytes c he, hw]

theorem decode_ge (c : OpWidth → BitVec 3 → RM → Instr) (h : OpcodePair k (recGE c)) (he : e.wellFormed = true)
    (w : OpWidth) : decode ((k + w.bit) :: (e.bytes g ++ rest)) = .ok (c w g e, rest) := by
  obtain ⟨hd, hw⟩ := h w
  rw [decode_cons _ hd, recGE_bytes c he, hw]

theorem decode_accI (c : Data → Instr) (h : OpcodePair k (recAccI c)) (d : Data) :
    decode ((k + d.width.bit) :: (d.bytes ++ rest)) = .ok (c d, rest) := by
  obtain ⟨hd, hw⟩ := h d.width
  rw [decode_cons _ hd, recAccI_bytes c hw.symm]

theorem decode_moffs (c : OpWidth → Word → Instr) (h : OpcodePair k (recMoffs c)) (w : OpWidth) (a : Word) :
    decode ((k + w.bit) :: (wordBytes a ++ rest)) = .ok (c w a, rest) := by
  obtain ⟨hd, hw⟩ := h w
  rw [decode_cons _ hd, recMoffs_bytes c, hw]

theorem decode_port (c : OpWidth → Byte → Instr) (h : OpcodePair k (recPort c)) (w : OpWidth) (b : Byte) :
    decode ((k + w.bit) :: b :: rest) = .ok (c w b, rest) := by
  obtain ⟨hd, hw⟩ := h w
  rw [decode_cons _ hd, recPort, hw]
  rfl

theorem decode_dx (c : OpWidth → Instr) (h : OpcodePair k (recDx c)) (w : OpWidth) :
    decode ((k + w.bit) :: rest) = .ok (c w, rest) := by
  obtain ⟨hd, hw⟩ := h w
  rw [decode_cons _ hd, recDx, hw]
  rfl

variable {slots : List (Option (Byte → Byte → Decoder))}

theorem decode_slotE (c : OpWidth → RM → Instr) (h : OpcodePair k (group slots))
    (hs : slots.getD g.toNat none = some (slotE c)) (he : e.wellFormed = true) (w : OpWidth) :
    decode ((k + w.bit) :: (e.bytes g ++ rest)) = .ok (c w e, rest) := by
  obtain ⟨hd, hw⟩ := h w
  rw [decode_cons _ hd, slotE_bytes c hs he, hw]

theorem decode_slotEI (c : RM → Data → Instr) (h : OpcodePair k (group slots))
    (hs : slots.getD g.toNat none = some (slotEI c)) (he : e.wellFormed = true) (d : Data) :
    decode ((k + d.width.bit) :: (e.bytes g ++ d.bytes ++ rest)) = .ok (c e d, rest) := by
  obtain ⟨hd, hw⟩ := h d.width
  rw [decode_cons _ hd, slotEI_bytes c hs he hw.symm]

end

/-- The decoders of an ALU instruction `c` with opcode base `k` and group 1 slot `slot` (41_arithmetic.md). -/
structure AluOpcodes (c : AluForm → Instr) (k : Byte) (slot : BitVec 3) : Prop where
  eg : OpcodePair k (recEG fun w e g => c (.eg w e g))
  ge : OpcodePair (k + 2) (recGE fun w g e => c (.ge w g e))
  accI : OpcodePair (k + 4) (recAccI fun d => c (.accI d))
  group1 : ∀ r, ∃ slots, group1 r = group slots ∧ slots.getD slot.toNat none = some (r c)

theorem AluOpcodes.decode_encode {c : AluForm → Instr} {k : Byte} {slot : BitVec 3} (h : AluOpcodes c k slot)
    {f : AluForm} (hf : f.wellFormed = true) (rest : List Byte) :
    decode (f.encode k slot ++ rest) = .ok (c f, rest) := by
  cases f with
  | eg w e g => exact decode_eg k _ h.eg hf w
  | ge w g e => exact decode_ge (k + 2) _ h.ge hf w
  | accI d => exact decode_accI (k + 4) _ h.accI d
  | eI e d =>
    obtain ⟨slots, hslots, hs⟩ := h.group1 fun c => slotEI fun e d => c (.eI e d)
    have hpair : OpcodePair 0x80 group1EI := opcodePair_of ⟨rfl, rfl⟩ ⟨rfl, rfl⟩
    rw [group1EI, hslots] at hpair
    exact decode_slotEI 0x80 _ hpair hs hf d
  | eI82 e b =>
    obtain ⟨slots, hslots, hs⟩ := h.group1 fun c => slotEByte fun e b => c (.eI82 e b)
    exact (decode_cons 0x82 (hslots ▸ rfl) _).trans (slotEByte_bytes _ hs hf b)
  | eIs e b =>
    obtain ⟨slots, hslots, hs⟩ := h.group1 fun c => slotEByte fun e b => c (.eIs e b)
    exact (decode_cons 0x83 (hslots ▸ rfl) _).trans (slotEByte_bytes _ hs hf b)

theorem decode_shift {slots : ShiftCount → List (Option (Byte → Byte → Decoder))} {g : BitVec 3}
    {c : ShiftCount → OpWidth → RM → Instr} (hslots : ∀ n, group2 n = group (slots n))
    (hs : ∀ n, (slots n).getD g.toNat none = some (slotE (c n))) (n : ShiftCount) (w : OpWidth) {e : RM}
    (he : e.wellFormed = true) (rest : List Byte) :
    decode (n.opcode w :: (e.bytes g ++ rest)) = .ok (c n w e, rest) := by
  cases n with
  | one => exact decode_slotE 0xD0 _ (hslots .one ▸ opcodePair_of ⟨rfl, rfl⟩ ⟨rfl, rfl⟩) (hs .one) he w
  | cl => exact decode_slotE 0xD2 _ (hslots .cl ▸ opcodePair_of ⟨rfl, rfl⟩ ⟨rfl, rfl⟩) (hs .cl) he w

/-- A statement about the eight values of a register field. -/
theorem forall_reg {P : BitVec 3 → Prop} (h0 : P 0) (h1 : P 1) (h2 : P 2) (h3 : P 3) (h4 : P 4) (h5 : P 5) (h6 : P 6)
    (h7 : P 7) (r : BitVec 3) : P r := by
  have hr : r = 0 ∨ r = 1 ∨ r = 2 ∨ r = 3 ∨ r = 4 ∨ r = 5 ∨ r = 6 ∨ r = 7 := by revert r; decide
  rcases hr with rfl | rfl | rfl | rfl | rfl | rfl | rfl | rfl
  · exact h0
  · exact h1
  · exact h2
  · exact h3
  · exact h4
  · exact h5
  · exact h6
  · exact h7

/-- The eight opcodes `op r` of the forms with a register in the opcode have decoder `d` (30_encoding.md R93). -/
def OpcodeOctet (op : BitVec 3 → Byte) (d : OpDecoder) : Prop :=
  ∀ r, opcodeMap.getD (op r).toNat unknown = d ∧ opReg3 (op r) = r

theorem decode_reg (op : BitVec 3 → Byte) (c : BitVec 3 → Instr) (h : OpcodeOctet op (recReg c)) (r : BitVec 3)
    (rest : List Byte) : decode (op r :: rest) = .ok (c r, rest) := by
  obtain ⟨hd, hr⟩ := h r
  rw [decode_cons _ hd, recReg, hr]
  rfl

theorem decode_regI (op : BitVec 3 → Byte) (h : OpcodeOctet op recRegI) (r : BitVec 3) {d : Data}
    (hd : (if (op r).getLsbD 3 then OpWidth.word else .byte) = d.width) (rest : List Byte) :
    decode (op r :: (d.bytes ++ rest)) = .ok (.mov (.regI r d), rest) := by
  obtain ⟨hop, hr⟩ := h r
  rw [decode_cons _ hop, recRegI_bytes hd, hr]

section
variable (op : Byte) {rest : List Byte}

theorem decode_word (c : Word → Instr) (h : opcodeMap.getD op.toNat unknown = recWord c) (v : Word) :
    decode (op :: (wordBytes v ++ rest)) = .ok (c v, rest) :=
  (decode_cons op h _).trans (recWord_bytes c v)

theorem decode_far (c : Word → Word → Instr) (h : opcodeMap.getD op.toNat unknown = recFar c) (off seg : Word) :
    decode (op :: (wordBytes off ++ wordBytes seg ++ rest)) = .ok (c off seg, rest) :=
  (decode_cons op h _).trans (recFar_bytes c off seg)

theorem decode_gm (c : BitVec 3 → Mem → Instr) (h : opcodeMap.getD op.toNat unknown = recGM c) {x : Mem}
    (hx : x.wellFormed = true) (g : BitVec 3) :
    decode (op :: ((RM.mem x).bytes g ++ rest)) = .ok (c g x, rest) :=
  (decode_cons op h _).trans (recGM_bytes c hx g)

end

/-! ### The instructions with several forms -/

section
variable (rest : List Byte)

theorem decode_mov {f : MovForm} (h : f.wellFormed = true) : decode (f.encode ++ rest) = .ok (.mov f, rest) := by
  have octet8 : OpcodeOctet (0b10110#5 ++ ·) recRegI := forall_reg ⟨rfl, rfl⟩ ⟨rfl, rfl⟩ ⟨rfl, rfl⟩ ⟨rfl, rfl⟩
    ⟨rfl, rfl⟩ ⟨rfl, rfl⟩ ⟨rfl, rfl⟩ ⟨rfl, rfl⟩
  have octet16 : OpcodeOctet (0b10111#5 ++ ·) recRegI := forall_reg ⟨rfl, rfl⟩ ⟨rfl, rfl⟩ ⟨rfl, rfl⟩ ⟨rfl, rfl⟩
    ⟨rfl, rfl⟩ ⟨rfl, rfl⟩ ⟨rfl, rfl⟩ ⟨rfl, rfl⟩
  have bit8 : ∀ r : BitVec 3, (0b10110#5 ++ r).getLsbD 3 = false := by decide
  have bit16 : ∀ r : BitVec 3, (0b10111#5 ++ r).getLsbD 3 = true := by decide
  cases f with
  | eg w e g => exact decode_eg 0x88 (fun w e g => .mov (.eg w e g)) (opcodePair_of ⟨rfl, rfl⟩ ⟨rfl, rfl⟩) h w
  | ge w g e => exact decode_ge 0x8A (fun w g e => .mov (.ge w g e)) (opcodePair_of ⟨rfl, rfl⟩ ⟨rfl, rfl⟩) h w
  | eI e d =>
    exact decode_slotEI 0xC6 (g := 0) (fun e d => .mov (.eI e d)) (opcodePair_of ⟨rfl, rfl⟩ ⟨rfl, rfl⟩) rfl h d
  | regI r d =>
    cases d with
    | byte b => exact decode_regI _ octet8 r (d := .byte b) (by rw [bit8]; rfl) rest
    | word v => exact decode_regI _ octet16 r (d := .word v) (by rw [bit16]; rfl) rest
  | accMoffs w a =>
    exact decode_moffs 0xA0 (fun w a => .mov (.accMoffs w a)) (opcodePair_of ⟨rfl, rfl⟩ ⟨rfl, rfl⟩) w a
  | moffsAcc w a =>
    exact decode_moffs 0xA2 (fun w a => .mov (.moffsAcc w a)) (opcodePair_of ⟨rfl, rfl⟩ ⟨rfl, rfl⟩) w a
  | ewS e s => exact (decode_cons 0x8C rfl _).trans (recEwS_bytes (op := 0x8C) h s)
  | sEw s e =>
    obtain ⟨hs, he⟩ := Bool.and_eq_true_iff.mp h
    exact (decode_cons 0x8E rfl _).trans (recSEw_bytes (op := 0x8E) he (bne_iff_ne.mp hs))

theorem decode_push {f : StackForm} (h : f.wellFormed = true) :
    decode (f.encodePush ++ rest) = .ok (.push f, rest) := by
  have octet : OpcodeOctet (0b01010#5 ++ ·) (recReg fun r => .push (.reg16 r)) := forall_reg ⟨rfl, rfl⟩ ⟨rfl, rfl⟩
    ⟨rfl, rfl⟩ ⟨rfl, rfl⟩ ⟨rfl, rfl⟩ ⟨rfl, rfl⟩ ⟨rfl, rfl⟩ ⟨rfl, rfl⟩
  cases f with
  | reg16 r => exact decode_reg _ _ octet r rest
  | sreg s => cases s <;> rfl
  | rm e => exact (decode_cons 0xFF rfl _).trans (slotE_bytes (g := 6) (fun _ e => .push (.rm e)) rfl h)

theorem decode_pop {f : StackForm} (h : f.wellFormedPop = true) :
    decode (f.encodePop ++ rest) = .ok (.pop f, rest) := by
  have octet : OpcodeOctet (0b01011#5 ++ ·) (recReg fun r => .pop (.reg16 r)) := forall_reg ⟨rfl, rfl⟩ ⟨rfl, rfl⟩
    ⟨rfl, rfl⟩ ⟨rfl, rfl⟩ ⟨rfl, rfl⟩ ⟨rfl, rfl⟩ ⟨rfl, rfl⟩ ⟨rfl, rfl⟩
  cases f with
  | reg16 r => exact decode_reg _ _ octet r rest
  | sreg s =>
    cases s with
    | CS => cases h
    | ES | SS | DS => rfl
  | rm e => exact (decode_cons 0x8F rfl _).trans (slotE_bytes (g := 0) (fun _ e => .pop (.rm e)) rfl h)

theorem decode_xchg {f : XchgForm} (h : f.wellFormed = true) : decode (f.encode ++ rest) = .ok (.xchg f, rest) := by
  cases f with
  | eg w e g => exact decode_eg 0x86 (fun w e g => .xchg (.eg w e g)) (opcodePair_of ⟨rfl, rfl⟩ ⟨rfl, rfl⟩) h w
  | ax r =>
    have hr : r ≠ 0 := bne_iff_ne.mp h
    revert r
    exact forall_reg (fun _ h => absurd rfl h) (fun _ _ => rfl) (fun _ _ => rfl) (fun _ _ => rfl) (fun _ _ => rfl)
      (fun _ _ => rfl) (fun _ _ => rfl) (fun _ _ => rfl)

theorem decode_inPort (f : PortForm) : decode (f.encode 0xE4 0xEC ++ rest) = .ok (.inPort f, rest) := by
  cases f with
  | imm w b => exact decode_port 0xE4 (fun w b => .inPort (.imm w b)) (opcodePair_of ⟨rfl, rfl⟩ ⟨rfl, rfl⟩) w b
  | dx w => exact decode_dx 0xEC (fun w => .inPort (.dx w)) (opcodePair_of ⟨rfl, rfl⟩ ⟨rfl, rfl⟩) w

theorem decode_outPort (f : PortForm) : decode (f.encode 0xE6 0xEE ++ rest) = .ok (.outPort f, rest) := by
  cases f with
  | imm w b => exact decode_port 0xE6 (fun w b => .outPort (.imm w b)) (opcodePair_of ⟨rfl, rfl⟩ ⟨rfl, rfl⟩) w b
  | dx w => exact decode_dx 0xEE (fun w => .outPort (.dx w)) (opcodePair_of ⟨rfl, rfl⟩ ⟨rfl, rfl⟩) w

theorem decode_incDec {k : Byte} {slot : BitVec 3} {c : IncDecForm → Instr}
    {slots4 slots5 : List (Option (Byte → Byte → Decoder))}
    (hreg : OpcodeOctet (fun r => k + r.setWidth 8) (recReg fun r => c (.reg16 r)))
    (h4 : group4 = group slots4) (hs4 : slots4.getD slot.toNat none = some (slotE fun w e => c (.rm w e)))
    (h5 : group5 = group slots5) (hs5 : slots5.getD slot.toNat none = some (slotE fun w e => c (.rm w e)))
    {f : IncDecForm} (hf : f.wellFormed = true) : decode (f.encode k slot ++ rest) = .ok (c f, rest) := by
  cases f with
  | reg16 r => exact decode_reg _ _ hreg r rest
  | rm w e =>
    cases w with
    | byte => exact (decode_cons 0xFE h4 _).trans (slotE_bytes _ hs4 hf)
    | word => exact (decode_cons 0xFF h5 _).trans (slotE_bytes _ hs5 hf)

theorem decode_test {f : TestForm} (h : f.wellFormed = true) : decode (f.encode ++ rest) = .ok (.test f, rest) := by
  cases f with
  | eg w e g => exact decode_eg 0x84 (fun w e g => .test (.eg w e g)) (opcodePair_of ⟨rfl, rfl⟩ ⟨rfl, rfl⟩) h w
  | accI d => exact decode_accI 0xA8 (fun d => .test (.accI d)) (opcodePair_of ⟨rfl, rfl⟩ ⟨rfl, rfl⟩) d
  | eI e d =>
    exact decode_slotEI 0xF6 (g := 0) (fun e d => .test (.eI e d)) (opcodePair_of ⟨rfl, rfl⟩ ⟨rfl, rfl⟩) rfl h d

theorem decode_call {f : CallForm} (h : f.wellFormed = true) : decode (f.encode ++ rest) = .ok (.call f, rest) := by
  cases f with
  | rel16 d => exact decode_word 0xE8 (fun d => .call (.rel16 d)) rfl d
  | rm e => exact (decode_cons 0xFF rfl _).trans (slotE_bytes (g := 2) (fun _ e => .call (.rm e)) rfl h)

theorem decode_jmp {f : JmpForm} (h : f.wellFormed = true) : decode (f.encode ++ rest) = .ok (.jmp f, rest) := by
  cases f with
  | rel8 d => rfl
  | rel16 d => exact decode_word 0xE9 (fun d => .jmp (.rel16 d)) rfl d
  | rm e => exact (decode_cons 0xFF rfl _).trans (slotE_bytes (g := 4) (fun _ e => .jmp (.rm e)) rfl h)

theorem decode_callf {f : FarForm} (h : f.wellFormed = true) :
    decode (f.encode 0x9A 3 ++ rest) = .ok (.callf f, rest) := by
  cases f with
  | far off seg => exact decode_far 0x9A (fun o s => .callf (.far o s)) rfl off seg
  | mem m => exact (decode_cons 0xFF rfl _).trans (slotM_bytes (g := 3) (fun m => .callf (.mem m)) rfl h)

theorem decode_jmpf {f : FarForm} (h : f.wellFormed = true) :
    decode (f.encode 0xEA 5 ++ rest) = .ok (.jmpf f, rest) := by
  cases f with
  | far off seg => exact decode_far 0xEA (fun o s => .jmpf (.far o s)) rfl off seg
  | mem m => exact (decode_cons 0xFF rfl _).trans (slotM_bytes (g := 5) (fun m => .jmpf (.mem m)) rfl h)

theorem decode_ret (f : RetForm) : decode (f.encode 0xC2 ++ rest) = .ok (.ret f, rest) := by
  cases f with
  | plain => rfl
  | adjust n => exact decode_word 0xC2 (fun n => .ret (.adjust n)) rfl n

theorem decode_retf (f : RetForm) : decode (f.encode 0xCA ++ rest) = .ok (.retf f, rest) := by
  cases f with
  | plain => rfl
  | adjust n => exact decode_word 0xCA (fun n => .retf (.adjust n)) rfl n

theorem decode_esc {code : BitVec 6} {e : RM} (h : e.wellFormed = true) :
    decode (escOpcode code :: (e.bytes (code.extractLsb' 0 3) ++ rest)) = .ok (.esc code e, rest) := by
  have octet : OpcodeOctet (0b11011#5 ++ ·) recEsc := forall_reg ⟨rfl, rfl⟩ ⟨rfl, rfl⟩ ⟨rfl, rfl⟩ ⟨rfl, rfl⟩ ⟨rfl, rfl⟩
    ⟨rfl, rfl⟩ ⟨rfl, rfl⟩ ⟨rfl, rfl⟩
  have hcode : ∀ code : BitVec 6, code.extractLsb' 3 3 ++ code.extractLsb' 0 3 = code := by decide
  obtain ⟨hd, hr⟩ := octet (code.extractLsb' 3 3)
  rw [escOpcode, decode_cons _ hd, recEsc_bytes h, hr, hcode]

end

/-- Settles O10: the opcode map has each form's decoder at its opcodes, and the recipes read back their operands. -/
theorem decodeOfEncode : Obligations.DecodeOfEncode := by
  intro i rest h
  cases i with
  | mov f => exact decode_mov rest h
  | push f => exact decode_push rest h
  | pop f => exact decode_pop rest h
  | xchg f => exact decode_xchg rest h
  | inPort f => exact decode_inPort rest f
  | outPort f => exact decode_outPort rest f
  | test f => exact decode_test rest h
  | call f => exact decode_call rest h
  | callf f => exact decode_callf rest h
  | jmp f => exact decode_jmp rest h
  | jmpf f => exact decode_jmpf rest h
  | ret f => exact decode_ret rest f
  | retf f => exact decode_retf rest f
  | inc f | dec f =>
    exact decode_incDec rest (forall_reg ⟨rfl, rfl⟩ ⟨rfl, rfl⟩ ⟨rfl, rfl⟩ ⟨rfl, rfl⟩ ⟨rfl, rfl⟩ ⟨rfl, rfl⟩ ⟨rfl, rfl⟩
      ⟨rfl, rfl⟩) rfl rfl rfl rfl h
  | esc code e => exact decode_esc rest h
  | add f | adc f | sub f | sbb f | cmp f | and f | or f | xor f =>
    exact AluOpcodes.decode_encode ⟨opcodePair_of ⟨rfl, rfl⟩ ⟨rfl, rfl⟩, opcodePair_of ⟨rfl, rfl⟩ ⟨rfl, rfl⟩,
      opcodePair_of ⟨rfl, rfl⟩ ⟨rfl, rfl⟩, fun _ => ⟨_, rfl, rfl⟩⟩ h rest
  | neg w e | mul w e | imul w e | div w e | idiv w e | not w e =>
    exact decode_slotE 0xF6 _ (opcodePair_of ⟨rfl, rfl⟩ ⟨rfl, rfl⟩) rfl h w
  | shl n w e | shr n w e | sar n w e | rol n w e | ror n w e | rcl n w e | rcr n w e =>
    exact decode_shift (fun _ => rfl) (fun _ => rfl) n w h rest
  | lea g m | lds g m | les g m => exact decode_gm _ _ rfl h g
  | prefixES | prefixCS | prefixSS | prefixDS
  | jo | jno | jb | jae | je | jne | jbe | ja | js | jns | jp | jnp | jl | jge | jle | jg | loop | loopz | loopnz | jcxz
  | int | aam | aad
  | xlat | lahf | sahf | pushf | popf | aaa | daa | aas | das | cbw | cwd | rep | repne | movsb | movsw | cmpsb | cmpsw
  | scasb | scasw | lodsb | lodsw | stosb | stosw | int3 | into | iret | clc | cmc | stc | cld | std | cli | sti | hlt
  | wait | lock | nop => rfl

/-- Settles O11: every decoder of the opcode map inverts the encoder. -/
theorem encodeOfDecode : Obligations.EncodeOfDecode := fun _ _ _ => decode_ok

/-- Settles O9: the twelve words by evaluation. -/
theorem specWordsDecode : Obligations.SpecWordsDecode :=
  ⟨rfl, rfl, rfl, rfl, rfl, rfl, rfl, rfl, rfl, rfl, rfl, rfl⟩

end Sys2Proof

/-! That the machine's decoder and the spec's algorithm agree on the bytes at the cursor. -/

namespace Sys2Proof.Machine

/-! ### The bytes at hand -/

/-- The bytes `bs` stand in the buffer from offset `q` on, and if they are fewer than `n`, the buffer ends after
them. -/
structure Memory.Window (B : Memory) (q n : Nat) (bs : List Byte) : Prop where
  holds : B.Holds q bs
  le : q + bs.length ≤ B.size
  ends : bs.length < n → q + bs.length = B.size

theorem Memory.Window.mono {B : Memory} {q m n : Nat} {bs : List Byte} (h : B.Window q n bs) (hmn : m ≤ n) :
    B.Window q m bs :=
  ⟨h.holds, h.le, fun hm => h.ends (by omega)⟩

theorem Memory.Window.tail {B : Memory} {q n : Nat} {b : Byte} {bs : List Byte} (h : B.Window q (n + 1) (b :: bs)) :
    B.Window (q + 1) n bs := by
  obtain ⟨⟨-, hb⟩, hle, hends⟩ := h
  rw [List.length_cons] at hle hends
  exact ⟨hb, by omega, fun hn => by have := hends (by omega); omega⟩

theorem fetch_window {s : State} (h : s.pos ≤ s.buf.size) : s.buf.Window s.pos maxInstrBytes s.fetch :=
  ⟨holds_fetch h, fetch_length_le h, fun hn => by rw [fetch_length] at hn ⊢; omega⟩

theorem Memory.read_eq_none {B : Memory} {q : Nat} (h : B.size ≤ q) : B.read q = none := if_neg (by omega)

/-! ### Agreement -/

/-- The machine, which has decoded to `r` at the cursor of `s`, and the algorithm, which gives `a`, answer alike: the
instruction's meaning completes with the algorithm's `Instruction`, or the errors are the same. -/
def Answers (s : State) (r : Except DecodeError (Instr × List Byte)) (a : Except Error Instruction) : Prop :=
  match r with
  | .ok (i, _) => ∃ x t, a = .ok x ∧ exec i s = .next t ∧ t.phase = .complete ∧ t.result = some (.ok x)
  | .error e => a = .error (errorOf s.p0 s.pos e)

/-- The decoder `d`, `k` bytes after the cursor of `s`, and what is left of the algorithm there agree, on bytes of which
they read at most `n`. -/
def Decoder.Agrees (s : State) (k n : Nat) (d : Decoder) (a : Except Error Instruction) : Prop :=
  ∀ bs, s.buf.Window (s.pos + k) n bs → Answers s (d bs) a

section
variable {s : State} {k n : Nat}

theorem agrees_mono {m : Nat} {d : Decoder} {a : Except Error Instruction} (h : Decoder.Agrees s k m d a)
    (hmn : m ≤ n) : Decoder.Agrees s k n d a :=
  fun bs hb => h bs (hb.mono hmn)

theorem done_agrees {i : Instr} {op : Byte} {type : InstructionType} {width : DataWidth} {operands : List Operand}
    (h : s.pos + k ≤ s.buf.size → completesWith s k op type width operands (exec i s)) :
    Decoder.Agrees s k n (done i) (.ok ⟨op, s.pos + k - s.p0, type, width, operands⟩) := by
  intro bs hb
  obtain ⟨t, ht, hc, -, -, -, -, hres⟩ := h ((Nat.le_add_right _ _).trans hb.le)
  exact ⟨_, t, rfl, ht, hc, hres⟩

theorem error_agrees (e : DecodeError) :
    Decoder.Agrees s k n (fun _ => .error e) (.error (errorOf s.p0 s.pos e)) :=
  fun _ _ => rfl

theorem readByte_agrees {d : Byte → Decoder} {a : Byte × Nat → Except Error Instruction}
    (h : ∀ b, Decoder.Agrees s (k + 1) n (d b) (a (b, s.pos + (k + 1)))) :
    Decoder.Agrees s k (n + 1) (readByte k d) (readByteAt s.buf s.p0 (s.pos + k) >>= a) := by
  intro bs hb
  cases bs with
  | nil =>
    have hend : s.pos + k = s.buf.size := hb.ends (Nat.succ_pos n)
    rw [readByteAt, Memory.read_eq_none hend.ge]
    rfl
  | cons b bs =>
    rw [readByteAt, hb.holds.1]
    exact h b bs hb.tail

theorem readWord_agrees {d : Word → Decoder} {a : Word × Nat → Except Error Instruction}
    (h : ∀ v, Decoder.Agrees s (k + 2) n (d v) (a (v, s.pos + (k + 2)))) :
    Decoder.Agrees s k (n + 2) (readWord k d) (readWordAt s.buf s.p0 (s.pos + k) >>= a) := by
  intro bs hb
  match bs with
  | [] =>
    have hend : s.pos + k = s.buf.size := hb.ends (Nat.succ_pos _)
    rw [readWordAt, Memory.read_eq_none hend.ge]
    rfl
  | [lo] =>
    have hend : s.pos + k + 1 = s.buf.size := hb.ends (Nat.succ_lt_succ (Nat.succ_pos _))
    rw [readWordAt, hb.holds.1, Memory.read_eq_none hend.ge]
    rfl
  | lo :: hi :: bs =>
    rw [readWordAt, hb.holds.1, hb.holds.2.1]
    exact h (wordOfBytes lo hi) bs hb.tail.tail

end

section
variable {s : State} {m : Byte} {w : OpWidth} {a : Operand × Nat → Except Error Instruction}

theorem readMem_agrees {d : Mem → Nat → Decoder} (h3 : modField m ≠ 3)
    (h : ∀ x : Mem, Decoder.Agrees s (rmLength (.mem x)) 2 (d x (rmLength (.mem x)))
      (a (memOperand s.seg x, s.pos + rmLength (.mem x)))) :
    Decoder.Agrees s 2 4 (readMem m d)
      (resolveRM s.buf s.p0 s.seg (modField m) (rmField m) w (s.pos + 2) >>= a) := by
  rw [resolveRM, if_neg h3, readMem]
  by_cases h0 : modField m = 0
  · by_cases h6 : rmField m = 6
    · simp only [h0, h6, and_self, if_true, bind_assoc]
      exact readWord_agrees fun v => h (.direct v)
    · simp only [h0, h6, and_false, if_true, if_false]
      exact agrees_mono (h (.noDisp (rmField m))) (by omega)
  · by_cases h1 : modField m = 1
    · rw [if_neg h0, if_pos h1, if_neg (fun hc => h0 hc.1), if_neg h0, if_pos h1, bind_assoc]
      exact agrees_mono (n := 4) (m := 3) (readByte_agrees fun b => h (.disp8 (rmField m) b)) (by omega)
    · simp only [h0, h1, false_and, if_false, bind_assoc]
      exact readWord_agrees fun v => h (.disp16 (rmField m) v)

theorem readRM_agrees {d : RM → Nat → Decoder}
    (h : ∀ e, Decoder.Agrees s (rmLength e) 2 (d e (rmLength e)) (a (rmOperand w s.seg e, s.pos + rmLength e))) :
    Decoder.Agrees s 2 4 (readRM m d)
      (resolveRM s.buf s.p0 s.seg (modField m) (rmField m) w (s.pos + 2) >>= a) := by
  rw [readRM]
  by_cases h3 : modField m = 3
  · rw [if_pos h3, resolveRM, if_pos h3]
    exact agrees_mono (h (.reg (rmField m))) (by omega)
  · rw [if_neg h3]
    exact readMem_agrees h3 fun x => h (.mem x)

end

/-! ### The algorithm after the opcode byte -/

/-- `Decode` once `BuildOperands` has given the operands and the cursor (30_encoding.md R87). -/
def builtInstruction (p0 : Nat) (op : Byte) (type : InstructionType) (width : DataWidth) (x : List Operand × Nat) :
    Except Error Instruction :=
  .ok ⟨op, x.2 - p0, type, width, x.1⟩

/-- `Decode` from the byte after the opcode on, by the opcode's table entry (30_encoding.md R87 to R89). -/
def decodeEntry (B : Memory) (p0 : Nat) (seg : Option SegmentType) (op : Byte) (pos : Nat) :
    TableEntry → Except Error Instruction
  | .unknown => .error ⟨.unknownOpcode, p0, pos - 1, some op, none⟩
  | .segPrefix _ => .error ⟨.unknownOpcode, p0, pos - 1, some op, none⟩
  | .direct type width recipe =>
    if recipe.hasModRM then
      readByteAt B p0 pos >>= fun x => finishModRM B p0 seg op x.1 type width recipe x.2
    else buildPlain B p0 recipe width.opWidth seg op pos >>= builtInstruction p0 op type width
  | .group g width column =>
    readByteAt B p0 pos >>= fun x =>
      match groupSlot g column (regField x.1) with
      | none => .error ⟨.unknownOpcode, p0, pos - 1, some op, some (regField x.1)⟩
      | some (type, recipe) => finishModRM B p0 seg op x.1 type width recipe x.2

theorem decodeAt_eq (B : Memory) (p0 : Nat) :
    decodeAt B p0 = readOpcode B p0 (B.size - p0 + 1) p0 none >>= fun x =>
      decodeEntry B p0 x.2.2 x.1 x.2.1 (primary x.1) := rfl

theorem finishModRM_eq {B : Memory} {p0 pos : Nat} {seg : Option SegmentType} {op m : Byte} {type : InstructionType}
    {width : DataWidth} {recipe : Recipe} (h : badFields recipe (modField m) (regField m) = false) :
    finishModRM B p0 seg op m type width recipe pos =
      resolveRM B p0 seg (modField m) (rmField m) (rmWidth recipe width) pos >>= fun x =>
        buildModRM B p0 recipe width.opWidth x.1 (regField m) op x.2 >>= builtInstruction p0 op type width := by
  rw [finishModRM, h]
  rfl

theorem finishModRM_bad {B : Memory} {p0 pos : Nat} {seg : Option SegmentType} {op m : Byte} {type : InstructionType}
    {width : DataWidth} {recipe : Recipe} (h : badFields recipe (modField m) (regField m) = true) :
    finishModRM B p0 seg op m type width recipe pos = .error ⟨.invalidOperandEncoding, p0, pos - 1, some m, none⟩ := by
  rw [finishModRM, h]
  rfl

/-- The decoder of opcode `op` agrees with the table entry: a segment-override prefix byte has the meaning of one, and
any other decodes as the algorithm does from the entry on. -/
def EntryAgrees (s : State) (op : Byte) (d : OpDecoder) : TableEntry → Prop
  | .segPrefix g => op = segPrefixByte g ∧ ∃ i, d = bare i ∧ ∀ t, exec i t = readSegPrefix g t
  | .unknown => Decoder.Agrees s 1 5 (d op) (decodeEntry s.buf s.p0 s.seg op (s.pos + 1) .unknown)
  | .direct type width recipe =>
    Decoder.Agrees s 1 5 (d op) (decodeEntry s.buf s.p0 s.seg op (s.pos + 1) (.direct type width recipe))
  | .group g width column =>
    Decoder.Agrees s 1 5 (d op) (decodeEntry s.buf s.p0 s.seg op (s.pos + 1) (.group g width column))

/-! ### The recipes without a ModRM byte -/

section
variable {s : State} {op : Byte} {type : InstructionType} {width : DataWidth} {recipe : Recipe} {k n : Nat}

theorem readByteImm_agrees {d : Byte → Decoder} {a : Operand × Nat → Except Error Instruction} {flag : ImmediateFlag}
    (h : ∀ b, Decoder.Agrees s (k + 1) n (d b) (a (.immediate (.byte b flag), s.pos + (k + 1)))) :
    Decoder.Agrees s k (n + 1) (readByte k d) (readByteImm s.buf s.p0 flag (s.pos + k) >>= a) := by
  rw [readByteImm, bind_assoc]
  exact readByte_agrees h

theorem readWordImm_agrees {d : Word → Decoder} {a : Operand × Nat → Except Error Instruction} {flag : ImmediateFlag}
    (h : ∀ v, Decoder.Agrees s (k + 2) n (d v) (a (.immediate (.word v flag), s.pos + (k + 2)))) :
    Decoder.Agrees s k (n + 2) (readWord k d) (readWordImm s.buf s.p0 flag (s.pos + k) >>= a) := by
  rw [readWordImm, bind_assoc]
  exact readWord_agrees h

theorem plain_agrees {d : OpDecoder} (hrecipe : recipe.hasModRM = false)
    (h : Decoder.Agrees s 1 5 (d op)
      (buildPlain s.buf s.p0 recipe width.opWidth s.seg op (s.pos + 1) >>= builtInstruction s.p0 op type width)) :
    EntryAgrees s op d (.direct type width recipe) := by
  rw [EntryAgrees, decodeEntry, hrecipe]
  exact h

/-- A recipe with no byte after the opcode. -/
theorem short_agrees {d : OpDecoder} {i : Instr} {operands : List Operand} (hrecipe : recipe.hasModRM = false)
    (hd : d op = done i)
    (hbuild : ∀ pos, buildPlain s.buf s.p0 recipe width.opWidth s.seg op pos = .ok (operands, pos))
    (hexec : exec i s = decodeShort op type width operands s) : EntryAgrees s op d (.direct type width recipe) := by
  refine plain_agrees hrecipe ?_
  rw [hd, hbuild]
  exact done_agrees fun hroom => hexec ▸ decodeShort_completes op type width operands hroom

/-- A recipe with one byte after the opcode, an immediate. -/
theorem byte_agrees {d : OpDecoder} {c : Byte → Instr} {flag : ImmediateFlag} {operands : Operand → List Operand}
    (hrecipe : recipe.hasModRM = false) (hd : d op = readByte 1 fun b => done (c b))
    (hbuild : ∀ pos, buildPlain s.buf s.p0 recipe width.opWidth s.seg op pos =
      readByteImm s.buf s.p0 flag pos >>= fun x => .ok (operands x.1, x.2))
    (hexec : ∀ b, exec (c b) s =
      decodeImm op (.byte b flag) type width (operands (.immediate (.byte b flag))) s) :
    EntryAgrees s op d (.direct type width recipe) := by
  refine plain_agrees hrecipe ?_
  rw [hd, hbuild, bind_assoc]
  exact readByteImm_agrees fun b => done_agrees fun hroom => hexec b ▸ decodeImm_completes op _ type width _ hroom

/-- A recipe with one word after the opcode, an immediate. -/
theorem word_agrees {d : OpDecoder} {c : Word → Instr} {flag : ImmediateFlag} {operands : Operand → List Operand}
    (hrecipe : recipe.hasModRM = false) (hd : d op = readWord 1 fun v => done (c v))
    (hbuild : ∀ pos, buildPlain s.buf s.p0 recipe width.opWidth s.seg op pos =
      readWordImm s.buf s.p0 flag pos >>= fun x => .ok (operands x.1, x.2))
    (hexec : ∀ v, exec (c v) s =
      decodeImm op (.word v flag) type width (operands (.immediate (.word v flag))) s) :
    EntryAgrees s op d (.direct type width recipe) := by
  refine plain_agrees hrecipe ?_
  rw [hd, hbuild, bind_assoc]
  exact readWordImm_agrees (n := 3) fun v => done_agrees fun hroom =>
    hexec v ▸ decodeImm_completes op _ type width _ hroom

/-- A form that reads an address word (30_encoding.md R101). -/
theorem moffs_agrees {c : OpWidth → Word → Instr} {operands : Operand → List Operand}
    (hrecipe : recipe.hasModRM = false)
    (hbuild : ∀ pos, buildPlain s.buf s.p0 recipe width.opWidth s.seg op pos =
      readWordAt s.buf s.p0 pos >>= fun x => .ok (operands (moffsOperand s.seg x.1), x.2))
    (hexec : ∀ a, exec (c (opWidth op) a) s =
      decodeImm op (.word a .none) type width (operands (moffsOperand s.seg a)) s) :
    EntryAgrees s op (recMoffs c) (.direct type width recipe) := by
  refine plain_agrees hrecipe ?_
  rw [recMoffs, hbuild, bind_assoc]
  exact readWord_agrees (n := 3) fun v => done_agrees fun hroom =>
    hexec v ▸ decodeImm_completes op (.word v .none) type width _ hroom

/-- The far pointer (30_encoding.md R96). -/
theorem far_agrees {c : Word → Word → Instr}
    (hexec : ∀ off seg, exec (c off seg) s =
      decodeWith [opcodeRead op, imm1Read (.word off .farOffset), imm2Read (.word seg .farSegment)] type width
        [.immediate (.word seg .farSegment), .immediate (.word off .farOffset)] s) :
    EntryAgrees s op (recFar c) (.direct type width .far) := by
  refine plain_agrees rfl ?_
  rw [recFar, buildPlain, bind_assoc]
  refine readWordImm_agrees (n := 3) fun off => ?_
  rw [bind_assoc]
  exact readWordImm_agrees (n := 1) fun seg => done_agrees fun hroom =>
    hexec off seg ▸ decodeFarPointer_completes op _ _ type width _ hroom

/-- The byte of AAM and AAD (30_encoding.md R112). -/
theorem base10_agrees {i : Instr} (hexec : exec i s = decodeImm op (.byte 0x0A .none) type width [] s) :
    EntryAgrees s op (recBase10 i) (.direct type width .base10) := by
  refine plain_agrees rfl ?_
  rw [recBase10, buildPlain, bind_assoc]
  refine readByte_agrees (n := 4) fun b => ?_
  by_cases hb : b = 0x0A
  · simp only [hb, if_true]
    exact done_agrees fun hroom => hexec ▸ decodeImm_completes op (.byte 0x0A .none) type width _ hroom
  · simp only [hb, if_false]
    exact error_agrees (.invalidOperand b)

theorem unknown_agrees : EntryAgrees s op unknown .unknown := error_agrees (.unknownOpcode op none)

end

/-! ### The recipes with a ModRM byte -/

section
variable {s : State} {op m : Byte} {type : InstructionType} {width : DataWidth} {recipe : Recipe}

theorem modrm_agrees {d : OpDecoder} {f : Byte → Decoder} (hrecipe : recipe.hasModRM = true)
    (hd : d op = readByte 1 f)
    (h : ∀ m, Decoder.Agrees s 2 4 (f m) (finishModRM s.buf s.p0 s.seg op m type width recipe (s.pos + 2))) :
    EntryAgrees s op d (.direct type width recipe) := by
  rw [EntryAgrees, decodeEntry, hrecipe, if_pos rfl, hd]
  exact readByte_agrees h

/-- A recipe with an r/m operand and no byte after its displacement. -/
theorem rm_agrees {c : RM → Instr} {reg : BitVec 3} {operands : Operand → List Operand}
    (hfields : badFields recipe (modField m) (regField m) = false)
    (hbuild : ∀ E pos, buildModRM s.buf s.p0 recipe width.opWidth E (regField m) op pos = .ok (operands E, pos))
    (hexec : ∀ e, exec (c e) s =
      decodeRM op reg e type width (operands (rmOperand (rmWidth recipe width) s.seg e)) s) :
    Decoder.Agrees s 2 4 (readRM m fun e _ => done (c e))
      (finishModRM s.buf s.p0 s.seg op m type width recipe (s.pos + 2)) := by
  rw [finishModRM_eq hfields]
  refine readRM_agrees fun e => ?_
  rw [hbuild]
  exact done_agrees fun hroom => hexec e ▸ decodeRM_completes op reg e type width _ hroom

/-- A recipe with a memory operand only (30_encoding.md R109). -/
theorem mem_agrees {c : Mem → Instr} {reg : BitVec 3} {operands : Operand → List Operand}
    (hfields : badFields recipe (modField m) (regField m) = (modField m == 3))
    (hbuild : ∀ E pos, buildModRM s.buf s.p0 recipe width.opWidth E (regField m) op pos = .ok (operands E, pos))
    (hexec : ∀ x, exec (c x) s = decodeRM op reg (.mem x) type width (operands (memOperand s.seg x)) s) :
    Decoder.Agrees s 2 4 (readMemOnly m fun x => done (c x))
      (finishModRM s.buf s.p0 s.seg op m type width recipe (s.pos + 2)) := by
  rw [readMemOnly]
  by_cases h3 : modField m = 3
  · rw [if_pos h3, finishModRM_bad (by rw [hfields, h3]; rfl)]
    exact error_agrees (.invalidOperand m)
  · rw [if_neg h3, finishModRM_eq (by rw [hfields]; exact beq_eq_false_iff_ne.mpr h3)]
    refine readMem_agrees h3 fun x => ?_
    rw [hbuild]
    exact done_agrees fun hroom => hexec x ▸ decodeRM_completes op reg (.mem x) type width _ hroom

/-- A recipe with an r/m operand and a byte immediate after its displacement. -/
theorem rmByte_agrees {c : RM → Byte → Instr} {reg : BitVec 3} {operands : Operand → Operand → List Operand}
    (hfields : badFields recipe (modField m) (regField m) = false)
    (hbuild : ∀ E pos, buildModRM s.buf s.p0 recipe width.opWidth E (regField m) op pos =
      readByteImm s.buf s.p0 .none pos >>= fun x => .ok (operands E x.1, x.2))
    (hexec : ∀ e b, exec (c e b) s = decodeRMImm op reg e (.byte b .none) type width
      (operands (rmOperand (rmWidth recipe width) s.seg e) (.immediate (.byte b .none))) s) :
    Decoder.Agrees s 2 4 (readRM m fun e n => readByte n fun b => done (c e b))
      (finishModRM s.buf s.p0 s.seg op m type width recipe (s.pos + 2)) := by
  rw [finishModRM_eq hfields]
  refine readRM_agrees fun e => ?_
  rw [hbuild, bind_assoc]
  exact readByteImm_agrees fun b => done_agrees fun hroom =>
    hexec e b ▸ decodeRMImm_completes op reg e (.byte b .none) type width _ hroom

/-- A recipe with an r/m operand and a word immediate after its displacement. -/
theorem rmWord_agrees {c : RM → Word → Instr} {reg : BitVec 3} {operands : Operand → Operand → List Operand}
    (hfields : badFields recipe (modField m) (regField m) = false)
    (hbuild : ∀ E pos, buildModRM s.buf s.p0 recipe width.opWidth E (regField m) op pos =
      readWordImm s.buf s.p0 .none pos >>= fun x => .ok (operands E x.1, x.2))
    (hexec : ∀ e v, exec (c e v) s = decodeRMImm op reg e (.word v .none) type width
      (operands (rmOperand (rmWidth recipe width) s.seg e) (.immediate (.word v .none))) s) :
    Decoder.Agrees s 2 4 (readRM m fun e n => readWord n fun v => done (c e v))
      (finishModRM s.buf s.p0 s.seg op m type width recipe (s.pos + 2)) := by
  rw [finishModRM_eq hfields]
  refine readRM_agrees fun e => ?_
  rw [hbuild, bind_assoc]
  exact readWordImm_agrees fun v => done_agrees fun hroom =>
    hexec e v ▸ decodeRMImm_completes op reg e (.word v .none) type width _ hroom

/-- The sign-extended byte of 83 (30_encoding.md R81). -/
theorem eIs_agrees {c : RM → Byte → Instr} {reg : BitVec 3}
    (hexec : ∀ e b, exec (c e b) s = decodeRMImm op reg e (.byte b .none) type width
      [rmOperand width.opWidth s.seg e, .immediate (sextImm b)] s) :
    Decoder.Agrees s 2 4 (readRM m fun e n => readByte n fun b => done (c e b))
      (finishModRM s.buf s.p0 s.seg op m type width .eIs (s.pos + 2)) := by
  rw [finishModRM_eq rfl]
  refine readRM_agrees fun e => ?_
  rw [buildModRM, bind_assoc]
  exact readByte_agrees fun b => done_agrees fun hroom =>
    hexec e b ▸ decodeRMImm_completes op reg e (.byte b .none) type width _ hroom

theorem eg_agrees {c : OpWidth → RM → BitVec 3 → Instr}
    (hexec : ∀ e g, exec (c (opWidth op) e g) s = decodeRM op g e type width
      [rmOperand width.opWidth s.seg e, regOperand width.opWidth g] s) :
    EntryAgrees s op (recEG c) (.direct type width .eg) :=
  modrm_agrees rfl rfl fun m => rm_agrees (operands := fun E => [E, regOperand width.opWidth (regField m)]) rfl
    (fun _ _ => rfl) fun e => hexec e (regField m)

theorem ge_agrees {c : OpWidth → BitVec 3 → RM → Instr}
    (hexec : ∀ g e, exec (c (opWidth op) g e) s = decodeRM op g e type width
      [regOperand width.opWidth g, rmOperand width.opWidth s.seg e] s) :
    EntryAgrees s op (recGE c) (.direct type width .ge) :=
  modrm_agrees rfl rfl fun m => rm_agrees (operands := fun E => [regOperand width.opWidth (regField m), E]) rfl
    (fun _ _ => rfl) fun e => hexec (regField m) e

theorem gM_agrees {c : BitVec 3 → Mem → Instr}
    (hexec : ∀ g x, exec (c g x) s = decodeGM op type g x s) :
    EntryAgrees s op (recGM c) (.direct type .word .gM) :=
  modrm_agrees rfl rfl fun m => mem_agrees (operands := fun E => [regOperand .word (regField m), E]) rfl
    (fun _ _ => rfl) fun x => hexec (regField m) x

theorem esc_agrees (hop : escOpcode (opReg3 op ++ (0 : BitVec 3)) = op) :
    EntryAgrees s op recEsc (.direct .ESC .word .esc) := by
  have hfields : ∀ r g : BitVec 3, escOpcode (r ++ g) = escOpcode (r ++ (0 : BitVec 3)) := by decide
  refine modrm_agrees rfl rfl fun m => rm_agrees (reg := (opReg3 op ++ regField m).extractLsb' 0 3)
    (operands := fun E => [.immediate (escImm (opReg3 op ++ regField m)), E]) rfl (fun _ _ => rfl) fun e => ?_
  rw [exec, execEsc, hfields, hop]
  rfl

theorem ewS_agrees : EntryAgrees s 0x8C recEwS (.direct .MOV .word .ewS) := by
  have hbad : ∀ r : BitVec 3, decide (4 ≤ r.toNat) = r.getLsbD 2 := by decide
  refine modrm_agrees rfl rfl fun m => ?_
  by_cases h : (regField m).getLsbD 2 = true
  · rw [if_pos h, finishModRM_bad (by rw [badFields, hbad, h])]
    exact error_agrees (.invalidOperand m)
  · rw [if_neg h]
    exact rm_agrees (operands := fun E => [E, sregOperand (regField m)])
      (by rw [badFields, hbad]; exact Bool.eq_false_iff.mpr h) (fun _ _ => rfl) fun e => rfl

theorem sEw_agrees : EntryAgrees s 0x8E recSEw (.direct .MOV .word .sEw) := by
  have hbad : ∀ r : BitVec 3, (decide (4 ≤ r.toNat) || r == 1) = decide (r.getLsbD 2 = true ∨ r = 1) := by decide
  refine modrm_agrees rfl rfl fun m => ?_
  by_cases h : (regField m).getLsbD 2 = true ∨ regField m = 1
  · rw [if_pos h, finishModRM_bad (by rw [badFields, hbad, decide_eq_true h])]
    exact error_agrees (.invalidOperand m)
  · rw [if_neg h]
    exact rm_agrees (operands := fun E => [sregOperand (regField m), E])
      (by rw [badFields, hbad, decide_eq_false h]) (fun _ _ => rfl) fun e => rfl

end

/-! ### The groups -/

section
variable {s : State} {op : Byte} {width : DataWidth}

/-- A slot of the machine's group and the same slot of `GROUP`: both empty, or both decode alike. -/
def SlotAgrees (s : State) (op m : Byte) (width : DataWidth) :
    Option (Byte → Byte → Decoder) → Option (InstructionType × Recipe) → Prop
  | none, none => True
  | some slot, some (type, recipe) =>
    Decoder.Agrees s 2 4 (slot op m) (finishModRM s.buf s.p0 s.seg op m type width recipe (s.pos + 2))
  | none, some _ => False
  | some _, none => False

theorem group_agrees {slots : List (Option (Byte → Byte → Decoder))} {g : GroupId} {column : Recipe}
    (h : ∀ r m, regField m = r → SlotAgrees s op m width (slots.getD r.toNat none) (groupSlot g column r)) :
    EntryAgrees s op (group slots) (.group g width column) := by
  rw [EntryAgrees, decodeEntry, group]
  refine readByte_agrees fun m => ?_
  have hm := h (regField m) m rfl
  cases hslot : slots.getD (regField m).toNat none with
  | none =>
    cases hq : groupSlot g column (regField m) with
    | none => exact error_agrees (.unknownOpcode op (some (regField m)))
    | some q => rw [hslot, hq] at hm; exact hm.elim
  | some slot =>
    cases hq : groupSlot g column (regField m) with
    | none => rw [hslot, hq] at hm; exact hm.elim
    | some q => rw [hslot, hq] at hm; exact hm

theorem group1_agrees {r : (AluForm → Instr) → Byte → Byte → Decoder} {column : Recipe}
    (h : ∀ (c : AluForm → Instr) (k : Byte) (slot : BitVec 3) (type : InstructionType),
      (∀ f, exec (c f) s = decodeAlu k slot type f s) → ∀ m, Decoder.Agrees s 2 4 (r c op m)
        (finishModRM s.buf s.p0 s.seg op m type width column (s.pos + 2))) :
    EntryAgrees s op (group1 r) (.group .g1 width column) :=
  group_agrees (forall_reg (fun m _ => h .add 0x00 0 .ADD (fun _ => rfl) m)
    (fun m _ => h .or 0x08 1 .OR (fun _ => rfl) m)
    (fun m _ => h .adc 0x10 2 .ADC (fun _ => rfl) m) (fun m _ => h .sbb 0x18 3 .SBB (fun _ => rfl) m)
    (fun m _ => h .and 0x20 4 .AND (fun _ => rfl) m) (fun m _ => h .sub 0x28 5 .SUB (fun _ => rfl) m)
    (fun m _ => h .xor 0x30 6 .XOR (fun _ => rfl) m) (fun m _ => h .cmp 0x38 7 .CMP (fun _ => rfl) m))

theorem group1EI_byte_agrees : EntryAgrees s 0x80 group1EI (.group .g1 .byte .eI) :=
  group1_agrees fun c _ _ _ hexec _ => rmByte_agrees (c := fun e b => c (.eI e (.byte b)))
    (operands := fun E i => [E, i]) rfl (fun _ _ => rfl) fun e b => hexec (.eI e (.byte b))

theorem group1EI_word_agrees : EntryAgrees s 0x81 group1EI (.group .g1 .word .eI) :=
  group1_agrees fun c _ _ _ hexec _ => rmWord_agrees (c := fun e v => c (.eI e (.word v)))
    (operands := fun E i => [E, i]) rfl (fun _ _ => rfl) fun e v => hexec (.eI e (.word v))

theorem group1EI82_agrees : EntryAgrees s 0x82 group1EI82 (.group .g1 .byte .eI) :=
  group1_agrees fun _ _ _ _ hexec _ => rmByte_agrees (operands := fun E i => [E, i]) rfl (fun _ _ => rfl)
    fun e b => hexec (.eI82 e b)

theorem group1EIs_agrees : EntryAgrees s 0x83 group1EIs (.group .g1 .word .eIs) :=
  group1_agrees fun _ _ _ _ hexec _ => eIs_agrees fun e b => hexec (.eIs e b)

theorem group2_agrees {n : ShiftCount} {column : Recipe} (hop : op = n.opcode (opWidth op))
   (hfields : ∀ mod reg, badFields column mod reg = false)
   (hbuild : ∀ E reg pos, buildModRM s.buf s.p0 column width.opWidth E reg op pos = .ok ([E, countOperand n], pos))
   (hwidth : width = dataWidth (opWidth op)) (hrm : rmWidth column width = opWidth op) :
    EntryAgrees s op (group2 n) (.group .g2 width column) := by
  have slot {c : ShiftCount → OpWidth → RM → Instr} {reg : BitVec 3} {type : InstructionType}
      (hexec : ∀ w e, exec (c n w e) s = decodeShift reg type n w e s) (m : Byte) :
      Decoder.Agrees s 2 4 (slotE (c n) op m) (finishModRM s.buf s.p0 s.seg op m type width column (s.pos + 2)) :=
    rm_agrees (hfields _ _) (fun E pos => hbuild E _ pos) fun e => by
      rw [hexec, decodeShift, ← hop, hrm, hwidth]
  exact group_agrees (forall_reg (fun m _ => slot (c := .rol) (fun _ _ => rfl) m)
    (fun m _ => slot (c := .ror) (fun _ _ => rfl) m)
    (fun m _ => slot (c := .rcl) (fun _ _ => rfl) m) (fun m _ => slot (c := .rcr) (fun _ _ => rfl) m)
    (fun m _ => slot (c := .shl) (fun _ _ => rfl) m) (fun m _ => slot (c := .shr) (fun _ _ => rfl) m)
    (fun _ _ => trivial)
    (fun m _ => slot (c := .sar) (fun _ _ => rfl) m))

/-- The slots of group 3 but the first, which has an immediate of the operand's width. -/
theorem group3_agrees (hrm : rmWidth .e width = opWidth op)
    (hop : op = 0xF6 + (opWidth op).bit) (hwidth : width = dataWidth (opWidth op))
    (h0 : ∀ m, Decoder.Agrees s 2 4 (slotEI (fun e d => .test (.eI e d)) op m)
      (finishModRM s.buf s.p0 s.seg op m .TEST width .eI (s.pos + 2))) :
    EntryAgrees s op group3 (.group .g3 width .e) := by
  have slot {c : OpWidth → RM → Instr} {reg : BitVec 3} {type : InstructionType}
      (hexec : ∀ w e, exec (c w e) s = decodeUnary reg type w e s) (m : Byte) :
      Decoder.Agrees s 2 4 (slotE c op m) (finishModRM s.buf s.p0 s.seg op m type width .e (s.pos + 2)) :=
    rm_agrees rfl (fun _ _ => rfl) fun e => by rw [hexec, decodeUnary, ← hop, hrm, hwidth]
  exact group_agrees (forall_reg (fun m _ => h0 m) (fun _ _ => trivial) (fun m _ => slot (c := .not) (fun _ _ => rfl) m)
    (fun m _ => slot (c := .neg) (fun _ _ => rfl) m) (fun m _ => slot (c := .mul) (fun _ _ => rfl) m)
    (fun m _ => slot (c := .imul) (fun _ _ => rfl) m) (fun m _ => slot (c := .div) (fun _ _ => rfl) m)
    (fun m _ => slot (c := .idiv) (fun _ _ => rfl) m))

theorem group3_byte_agrees : EntryAgrees s 0xF6 group3 (.group .g3 .byte .e) :=
  group3_agrees rfl rfl rfl fun _ => rmByte_agrees (c := fun e b => .test (.eI e (.byte b)))
    (operands := fun E i => [E, i]) rfl (fun _ _ => rfl) fun _ _ => rfl

theorem group3_word_agrees : EntryAgrees s 0xF7 group3 (.group .g3 .word .e) :=
  group3_agrees rfl rfl rfl fun _ => rmWord_agrees (c := fun e v => .test (.eI e (.word v)))
    (operands := fun E i => [E, i]) rfl (fun _ _ => rfl) fun _ _ => rfl

theorem group4_agrees : EntryAgrees s 0xFE group4 (.group .g4 .byte .e) :=
  group_agrees (forall_reg (fun _ _ => rm_agrees rfl (fun _ _ => rfl) fun _ => rfl)
    (fun _ _ => rm_agrees rfl (fun _ _ => rfl) fun _ => rfl) (fun _ _ => trivial) (fun _ _ => trivial)
    (fun _ _ => trivial) (fun _ _ => trivial) (fun _ _ => trivial) (fun _ _ => trivial))

theorem group5_agrees : EntryAgrees s 0xFF group5 (.group .g5 .word .e) :=
  group_agrees (forall_reg (fun _ _ => rm_agrees rfl (fun _ _ => rfl) fun _ => rfl)
    (fun _ _ => rm_agrees rfl (fun _ _ => rfl) fun _ => rfl) (fun _ _ => rm_agrees rfl (fun _ _ => rfl) fun _ => rfl)
    (fun _ _ => mem_agrees rfl (fun _ _ => rfl) fun _ => rfl) (fun _ _ => rm_agrees rfl (fun _ _ => rfl) fun _ => rfl)
    (fun _ _ => mem_agrees rfl (fun _ _ => rfl) fun _ => rfl) (fun _ _ => rm_agrees rfl (fun _ _ => rfl) fun _ => rfl)
    (fun _ _ => trivial))

theorem group8F_agrees : EntryAgrees s 0x8F group8F (.group .g8F .word .e) :=
  group_agrees (forall_reg (fun _ _ => rm_agrees rfl (fun _ _ => rfl) fun _ => rfl) (fun _ _ => trivial)
    (fun _ _ => trivial) (fun _ _ => trivial) (fun _ _ => trivial) (fun _ _ => trivial) (fun _ _ => trivial)
    (fun _ _ => trivial))

theorem groupC6_byte_agrees : EntryAgrees s 0xC6 groupC6 (.group .gC6 .byte .eI) :=
  group_agrees (forall_reg (fun _ _ => rmByte_agrees (c := fun e b => .mov (.eI e (.byte b)))
      (operands := fun E i => [E, i]) rfl (fun _ _ => rfl) fun _ _ => rfl)
    (fun _ _ => trivial) (fun _ _ => trivial) (fun _ _ => trivial) (fun _ _ => trivial) (fun _ _ => trivial)
    (fun _ _ => trivial) (fun _ _ => trivial))

theorem groupC6_word_agrees : EntryAgrees s 0xC7 groupC6 (.group .gC6 .word .eI) :=
  group_agrees (forall_reg (fun _ _ => rmWord_agrees (c := fun e v => .mov (.eI e (.word v)))
      (operands := fun E i => [E, i]) rfl (fun _ _ => rfl) fun _ _ => rfl)
    (fun _ _ => trivial) (fun _ _ => trivial) (fun _ _ => trivial) (fun _ _ => trivial) (fun _ _ => trivial)
    (fun _ _ => trivial) (fun _ _ => trivial))

end

/-! ### The opcode map -/

/-- The decoders of the opcodes from number `k` on agree with the table entries. -/
def OpcodesAgree (s : State) : Nat → List OpDecoder → List TableEntry → Prop
  | _, [], [] => True
  | k, d :: ds, te :: tes => EntryAgrees s (BitVec.ofNat 8 k) d te ∧ OpcodesAgree s (k + 1) ds tes
  | _, [], _ :: _ => False
  | _, _ :: _, [] => False

section
variable {s : State}

theorem OpcodesAgree.append {ds es : List OpDecoder} {tes ues : List TableEntry} {k : Nat}
    (hd : OpcodesAgree s k ds tes) (he : OpcodesAgree s (k + ds.length) es ues) :
    OpcodesAgree s k (ds ++ es) (tes ++ ues) := by
  induction ds generalizing k tes with
  | nil => cases tes with
    | nil => exact he
    | cons te tes => exact hd.elim
  | cons d ds ih => cases tes with
    | nil => exact hd.elim
    | cons te tes =>
      refine ⟨hd.1, ih hd.2 ?_⟩
      rwa [List.length_cons, Nat.add_comm ds.length, ← Nat.add_assoc] at he

theorem OpcodesAgree.getD {ds : List OpDecoder} {tes : List TableEntry} {k n : Nat} (h : OpcodesAgree s k ds tes)
    (hn : n < ds.length) (d : OpDecoder) (te : TableEntry) :
    EntryAgrees s (BitVec.ofNat 8 (k + n)) (ds.getD n d) (tes.getD n te) := by
  induction ds generalizing k n tes with
  | nil => exact absurd hn (Nat.not_lt_zero n)
  | cons d' ds ih => cases tes with
    | nil => exact h.elim
    | cons te' tes =>
      cases n with
      | zero => exact h.1
      | succ n =>
        have := ih h.2 (Nat.lt_of_succ_lt_succ hn)
        rwa [Nat.add_right_comm] at this

/-- The six entries of an ALU instruction (41_arithmetic.md). -/
def aluEntries (type : InstructionType) : List TableEntry :=
  [.direct type .byte .eg, .direct type .word .eg, .direct type .byte .ge, .direct type .word .ge,
   .direct type .byte .accI, .direct type .word .accI]

/-- The six opcodes of an ALU instruction with an even base `k`. -/
theorem aluRow_agrees {c : AluForm → Instr} {k : Nat} {slot : BitVec 3} {type : InstructionType} (hk : k % 2 = 0)
    (hexec : ∀ f, exec (c f) s = decodeAlu (BitVec.ofNat 8 k) slot type f s) :
    OpcodesAgree s k (aluRow c) (aluEntries type) := by
  have byte {n : Nat} (hn : n % 2 = 0) : opWidth (BitVec.ofNat 8 n) = .byte := by rw [opWidth_ofNat, if_neg (by omega)]
  have word {n : Nat} (hn : n % 2 = 1) : opWidth (BitVec.ofNat 8 n) = .word := by rw [opWidth_ofNat, if_pos hn]
  have opcode (j : Nat) : BitVec.ofNat 8 (k + j) = BitVec.ofNat 8 k + BitVec.ofNat 8 j := BitVec.ofNat_add k j
  have op0 : BitVec.ofNat 8 k + OpWidth.byte.bit = BitVec.ofNat 8 k := BitVec.add_zero _
  have op1 : BitVec.ofNat 8 k + OpWidth.word.bit = BitVec.ofNat 8 (k + 1) := (opcode 1).symm
  have op2 : BitVec.ofNat 8 k + 2 + OpWidth.byte.bit = BitVec.ofNat 8 (k + 2) := by
    rw [opcode, BitVec.add_assoc]; rfl
  have op3 : BitVec.ofNat 8 k + 2 + OpWidth.word.bit = BitVec.ofNat 8 (k + 3) := by
    rw [opcode, BitVec.add_assoc]; rfl
  have op4 : BitVec.ofNat 8 k + 4 + OpWidth.byte.bit = BitVec.ofNat 8 (k + 4) := by
    rw [opcode, BitVec.add_assoc]; rfl
  have op5 : BitVec.ofNat 8 k + 4 + OpWidth.word.bit = BitVec.ofNat 8 (k + 5) := by
    rw [opcode, BitVec.add_assoc]; rfl
  refine ⟨eg_agrees fun e g => ?_, eg_agrees fun e g => ?_, ge_agrees fun g e => ?_, ge_agrees fun g e => ?_,
    byte_agrees (c := fun b => c (.accI (.byte b))) (operands := fun i => [regOperand .byte 0, i]) (flag := .none)
      rfl ?_ (fun _ => rfl) fun b => ?_,
    word_agrees (c := fun v => c (.accI (.word v))) (operands := fun i => [regOperand .word 0, i]) (flag := .none)
      rfl ?_ (fun _ => rfl) fun v => ?_, trivial⟩
  · rw [byte hk, hexec, decodeAlu, AluForm.opcode, op0]; rfl
  · rw [word (by omega), hexec, decodeAlu, AluForm.opcode, op1]; rfl
  · rw [byte (by omega), hexec, decodeAlu, AluForm.opcode, op2]; rfl
  · rw [word (by omega), hexec, decodeAlu, AluForm.opcode, op3]; rfl
  · rw [recAccI, byte (by omega)]; rfl
  · rw [hexec, decodeAlu, AluForm.opcode, Data.width, op4]; rfl
  · rw [recAccI, word (by omega)]; rfl
  · rw [hexec, decodeAlu, AluForm.opcode, Data.width, op5]; rfl

theorem sreg_agrees {op : Byte} {c : SegmentType → Instr} {type : InstructionType}
    (hexec : exec (c (opSeg op)) s = decodeShort op type .word [segOperand (opSeg op)] s) :
    EntryAgrees s op (recSreg c) (.direct type .word .sreg) :=
  short_agrees (operands := [segOperand (opSeg op)]) rfl rfl (fun _ => rfl) hexec

theorem OpcodesAgree.replicate {d : OpDecoder} {te : TableEntry} {k n : Nat}
    (h : ∀ j < n, EntryAgrees s (BitVec.ofNat 8 (k + j)) d te) :
    OpcodesAgree s k (List.replicate n d) (List.replicate n te) := by
  induction n generalizing k with
  | zero => trivial
  | succ n ih =>
    refine ⟨h 0 (Nat.succ_pos n), ih fun j hj => ?_⟩
    have := h (j + 1) (Nat.succ_lt_succ hj)
    rwa [Nat.add_comm j, ← Nat.add_assoc] at this

/-- The register forms of the opcodes `f r` (30_encoding.md R93). -/
theorem reg_agrees {op : Byte} {c : BitVec 3 → Instr} {type : InstructionType} {recipe : Recipe}
    {operands : BitVec 3 → List Operand} {f : BitVec 3 → Byte} (hop : f (opReg3 op) = op)
    (hrecipe : recipe.hasModRM = false)
    (hbuild : ∀ pos, buildPlain s.buf s.p0 recipe .word s.seg op pos = .ok (operands (opReg3 op), pos))
    (hexec : ∀ r, exec (c r) s = decodeShort (f r) type .word (operands r) s) :
    EntryAgrees s op (recReg c) (.direct type .word recipe) :=
  short_agrees hrecipe rfl hbuild (by rw [hexec, hop])

theorem prefix_agrees {op : Byte} {i : Instr} {g : SegmentType} (hop : op = segPrefixByte g)
    (hexec : ∀ t, exec i t = readSegPrefix g t) : EntryAgrees s op (bare i) (.segPrefix g) :=
  ⟨hop, i, rfl, hexec⟩

theorem bare_agrees {op : Byte} {i : Instr} {type : InstructionType} {width : DataWidth}
    (hexec : exec i s = decodeShort op type width [] s) : EntryAgrees s op (bare i) (.direct type width .bare) :=
  short_agrees rfl rfl (fun _ => rfl) hexec

theorem rel8_agrees {op : Byte} {c : Byte → Instr} {type : InstructionType}
    (hexec : ∀ d, exec (c d) s = decodeRel8 op type d s) :
    EntryAgrees s op (recByte c) (.direct type .none .rel8) :=
  byte_agrees (operands := fun i => [i]) rfl rfl (fun _ => rfl) hexec

theorem opcodes00_agree : OpcodesAgree s 0x00 opcodes00 (primaryRow0 ++ primaryRow1 ++ primaryRow2 ++ primaryRow3) := by
  have pushPop {k : Nat}
      (hpush : EntryAgrees s (BitVec.ofNat 8 k) (recSreg fun s => .push (.sreg s)) (.direct .PUSH .word .sreg))
      (hpop : EntryAgrees s (BitVec.ofNat 8 (k + 1)) (recSreg fun s => .pop (.sreg s)) (.direct .POP .word .sreg)) :
      OpcodesAgree s k [recSreg fun s => .push (.sreg s), recSreg fun s => .pop (.sreg s)]
        [.direct .PUSH .word .sreg, .direct .POP .word .sreg] :=
    ⟨hpush, hpop, trivial⟩
  have prefixBare {k : Nat} (g : SegmentType) (i j : Instr) (type : InstructionType)
      (hg : BitVec.ofNat 8 k = segPrefixByte g) (hi : ∀ t, exec i t = readSegPrefix g t)
      (hj : exec j s = decodeShort (BitVec.ofNat 8 (k + 1)) type .none [] s) :
      OpcodesAgree s k [bare i, bare j] [.segPrefix g, .direct type .none .bare] :=
    ⟨prefix_agrees hg hi, bare_agrees hj, trivial⟩
  have row00 := aluRow_agrees (s := s) (c := .add) (k := 0x00) (slot := 0) (type := .ADD) rfl fun _ => rfl
  have row06 := pushPop (k := 0x06) (sreg_agrees rfl) (sreg_agrees rfl)
  have row08 := aluRow_agrees (s := s) (c := .or) (k := 0x08) (slot := 1) (type := .OR) rfl fun _ => rfl
  have row0E : OpcodesAgree s 0x0E [recSreg fun s => .push (.sreg s), unknown] [.direct .PUSH .word .sreg, .unknown] :=
    ⟨sreg_agrees rfl, unknown_agrees, trivial⟩
  have row10 := aluRow_agrees (s := s) (c := .adc) (k := 0x10) (slot := 2) (type := .ADC) rfl fun _ => rfl
  have row16 := pushPop (k := 0x16) (sreg_agrees rfl) (sreg_agrees rfl)
  have row18 := aluRow_agrees (s := s) (c := .sbb) (k := 0x18) (slot := 3) (type := .SBB) rfl fun _ => rfl
  have row1E := pushPop (k := 0x1E) (sreg_agrees rfl) (sreg_agrees rfl)
  have row20 := aluRow_agrees (s := s) (c := .and) (k := 0x20) (slot := 4) (type := .AND) rfl fun _ => rfl
  have row26 := prefixBare (k := 0x26) .ES .prefixES .daa .DAA rfl (fun _ => rfl) rfl
  have row28 := aluRow_agrees (s := s) (c := .sub) (k := 0x28) (slot := 5) (type := .SUB) rfl fun _ => rfl
  have row2E := prefixBare (k := 0x2E) .CS .prefixCS .das .DAS rfl (fun _ => rfl) rfl
  have row30 := aluRow_agrees (s := s) (c := .xor) (k := 0x30) (slot := 6) (type := .XOR) rfl fun _ => rfl
  have row36 := prefixBare (k := 0x36) .SS .prefixSS .aaa .AAA rfl (fun _ => rfl) rfl
  have row38 := aluRow_agrees (s := s) (c := .cmp) (k := 0x38) (slot := 7) (type := .CMP) rfl fun _ => rfl
  have row3E := prefixBare (k := 0x3E) .DS .prefixDS .aas .AAS rfl (fun _ => rfl) rfl
  exact row00.append row06 |>.append row08 |>.append row0E |>.append row10 |>.append row16 |>.append row18
    |>.append row1E |>.append row20 |>.append row26 |>.append row28 |>.append row2E |>.append row30 |>.append row36
    |>.append row38 |>.append row3E

theorem opcodes40_agree : OpcodesAgree s 0x40 opcodes40 (primaryRow4 ++ primaryRow5 ++ primaryRow6 ++ primaryRow7) := by
  have inc : ∀ j < 8,
      IncDecForm.opcode 0x40 (.reg16 (opReg3 (BitVec.ofNat 8 (0x40 + j)))) = BitVec.ofNat 8 (0x40 + j) := by decide
  have dec : ∀ j < 8,
      IncDecForm.opcode 0x48 (.reg16 (opReg3 (BitVec.ofNat 8 (0x48 + j)))) = BitVec.ofNat 8 (0x48 + j) := by decide
  have push : ∀ j < 8,
      (StackForm.reg16 (opReg3 (BitVec.ofNat 8 (0x50 + j)))).opcodePush = BitVec.ofNat 8 (0x50 + j) := by decide
  have pop : ∀ j < 8,
      (StackForm.reg16 (opReg3 (BitVec.ofNat 8 (0x58 + j)))).opcodePop = BitVec.ofNat 8 (0x58 + j) := by decide
  have octet {k : Nat} {c : BitVec 3 → Instr} {type : InstructionType} {f : BitVec 3 → Byte}
      (hop : ∀ j < 8, f (opReg3 (BitVec.ofNat 8 (k + j))) = BitVec.ofNat 8 (k + j))
      (hexec : ∀ r, exec (c r) s = decodeShort (f r) type .word [regOperand .word r] s) :
      OpcodesAgree s k (.replicate 8 (recReg c)) (.replicate 8 (.direct type .word .reg16)) :=
    .replicate fun j hj => reg_agrees (operands := fun r => [regOperand .word r]) (hop j hj) rfl (fun _ => rfl) hexec
  have row40 := octet (c := fun r => .inc (.reg16 r)) (f := fun r => IncDecForm.opcode 0x40 (.reg16 r))
    (type := .INC) inc fun _ => rfl
  have row48 := octet (c := fun r => .dec (.reg16 r)) (f := fun r => IncDecForm.opcode 0x48 (.reg16 r))
    (type := .DEC) dec fun _ => rfl
  have row50 := octet (c := fun r => .push (.reg16 r)) (f := fun r => (StackForm.reg16 r).opcodePush)
    (type := .PUSH) push fun _ => rfl
  have row58 := octet (c := fun r => .pop (.reg16 r)) (f := fun r => (StackForm.reg16 r).opcodePop)
    (type := .POP) pop fun _ => rfl
  have row60 : OpcodesAgree s 0x60 (.replicate 16 unknown) (.replicate 16 .unknown) :=
    .replicate fun _ _ => unknown_agrees
  have row70 : OpcodesAgree s 0x70 ([recByte .jo, recByte .jno, recByte .jb, recByte .jae, recByte .je, recByte .jne,
      recByte .jbe, recByte .ja] ++ [recByte .js, recByte .jns, recByte .jp, recByte .jnp, recByte .jl, recByte .jge,
      recByte .jle, recByte .jg]) primaryRow7 := by
    refine ⟨?_, ?_, ?_, ?_, ?_, ?_, ?_, ?_, ?_, ?_, ?_, ?_, ?_, ?_, ?_, ?_, trivial⟩ <;> exact rel8_agrees fun _ => rfl
  exact row40.append row48 |>.append row50 |>.append row58 |>.append row60 |>.append row70

theorem opcodes80_agree : OpcodesAgree s 0x80 opcodes80 (primaryRow8 ++ primaryRow9 ++ primaryRowA ++ primaryRowB) := by
  have row80 : OpcodesAgree s 0x80 [group1EI, group1EI, group1EI82, group1EIs, recEG fun w e g => .test (.eg w e g),
      recEG fun w e g => .test (.eg w e g), recEG fun w e g => .xchg (.eg w e g), recEG fun w e g => .xchg (.eg w e g)]
      [.group .g1 .byte .eI, .group .g1 .word .eI, .group .g1 .byte .eI, .group .g1 .word .eIs,
       .direct .TEST .byte .eg, .direct .TEST .word .eg, .direct .XCHG .byte .eg, .direct .XCHG .word .eg] :=
    ⟨group1EI_byte_agrees, group1EI_word_agrees, group1EI82_agrees, group1EIs_agrees, eg_agrees fun _ _ => rfl,
      eg_agrees fun _ _ => rfl, eg_agrees fun _ _ => rfl, eg_agrees fun _ _ => rfl, trivial⟩
  have row88 : OpcodesAgree s 0x88 [recEG fun w e g => .mov (.eg w e g), recEG fun w e g => .mov (.eg w e g),
      recGE fun w g e => .mov (.ge w g e), recGE fun w g e => .mov (.ge w g e), recEwS, recGM .lea, recSEw, group8F]
      [.direct .MOV .byte .eg, .direct .MOV .word .eg, .direct .MOV .byte .ge, .direct .MOV .word .ge,
       .direct .MOV .word .ewS, .direct .LEA .word .gM, .direct .MOV .word .sEw, .group .g8F .word .e] :=
    ⟨eg_agrees fun _ _ => rfl, eg_agrees fun _ _ => rfl, ge_agrees fun _ _ => rfl, ge_agrees fun _ _ => rfl,
      ewS_agrees, gM_agrees fun _ _ => rfl, sEw_agrees, group8F_agrees, trivial⟩
  have row90 : OpcodesAgree s 0x90 [bare .nop] [.direct .NOP .none .bare] := ⟨bare_agrees rfl, trivial⟩
  have xchg : ∀ j < 7, (XchgForm.ax (opReg3 (BitVec.ofNat 8 (0x91 + j)))).opcode = BitVec.ofNat 8 (0x91 + j) := by
    decide
  have row91 : OpcodesAgree s 0x91 (.replicate 7 (recReg fun r => .xchg (.ax r)))
      (.replicate 7 (.direct .XCHG .word .axReg16)) :=
    .replicate fun j hj => reg_agrees (operands := fun r => [.register .AX, regOperand .word r])
      (f := fun r => (XchgForm.ax r).opcode) (xchg j hj) rfl (fun _ => rfl) fun _ => rfl
  have row98 : OpcodesAgree s 0x98 [bare .cbw, bare .cwd, recFar fun o s => .callf (.far o s), bare .wait, bare .pushf,
      bare .popf, bare .sahf, bare .lahf]
      [.direct .CBW .none .bare, .direct .CWD .none .bare, .direct .CALLF .none .far, .direct .WAIT .none .bare,
       .direct .PUSHF .none .bare, .direct .POPF .none .bare, .direct .SAHF .none .bare, .direct .LAHF .none .bare] :=
    ⟨bare_agrees rfl, bare_agrees rfl, far_agrees fun _ _ => rfl, bare_agrees rfl, bare_agrees rfl, bare_agrees rfl,
      bare_agrees rfl, bare_agrees rfl, trivial⟩
  have rowA0 : OpcodesAgree s 0xA0 [recMoffs fun w a => .mov (.accMoffs w a), recMoffs fun w a => .mov (.accMoffs w a),
      recMoffs fun w a => .mov (.moffsAcc w a), recMoffs fun w a => .mov (.moffsAcc w a), bare .movsb, bare .movsw,
      bare .cmpsb, bare .cmpsw]
      [.direct .MOV .byte .accMoffs, .direct .MOV .word .accMoffs, .direct .MOV .byte .moffsAcc,
       .direct .MOV .word .moffsAcc, .direct .MOVSB .byte .bare, .direct .MOVSW .word .bare,
       .direct .CMPSB .byte .bare, .direct .CMPSW .word .bare] :=
    ⟨moffs_agrees (operands := fun a => [regOperand .byte 0, a]) rfl (fun _ => rfl) fun _ => rfl,
      moffs_agrees (operands := fun a => [regOperand .word 0, a]) rfl (fun _ => rfl) fun _ => rfl,
      moffs_agrees (operands := fun a => [a, regOperand .byte 0]) rfl (fun _ => rfl) fun _ => rfl,
      moffs_agrees (operands := fun a => [a, regOperand .word 0]) rfl (fun _ => rfl) fun _ => rfl,
      bare_agrees rfl, bare_agrees rfl, bare_agrees rfl, bare_agrees rfl, trivial⟩
  have rowA8 : OpcodesAgree s 0xA8 [recAccI fun d => .test (.accI d), recAccI fun d => .test (.accI d), bare .stosb,
      bare .stosw, bare .lodsb, bare .lodsw, bare .scasb, bare .scasw]
      [.direct .TEST .byte .accI, .direct .TEST .word .accI, .direct .STOSB .byte .bare, .direct .STOSW .word .bare,
       .direct .LODSB .byte .bare, .direct .LODSW .word .bare, .direct .SCASB .byte .bare,
       .direct .SCASW .word .bare] :=
    ⟨byte_agrees (c := fun b => .test (.accI (.byte b))) (operands := fun i => [regOperand .byte 0, i]) rfl rfl
        (fun _ => rfl) fun _ => rfl,
      word_agrees (c := fun v => .test (.accI (.word v))) (operands := fun i => [regOperand .word 0, i]) rfl rfl
        (fun _ => rfl) fun _ => rfl,
      bare_agrees rfl, bare_agrees rfl, bare_agrees rfl, bare_agrees rfl, bare_agrees rfl, bare_agrees rfl, trivial⟩
  have regI8 : ∀ j < 8, (BitVec.ofNat 8 (0xB0 + j)).getLsbD 3 = false ∧
      0b10110#5 ++ opReg3 (BitVec.ofNat 8 (0xB0 + j)) = BitVec.ofNat 8 (0xB0 + j) := by decide
  have regI16 : ∀ j < 8, (BitVec.ofNat 8 (0xB8 + j)).getLsbD 3 = true ∧
      0b10111#5 ++ opReg3 (BitVec.ofNat 8 (0xB8 + j)) = BitVec.ofNat 8 (0xB8 + j) := by decide
  have rowB0 : OpcodesAgree s 0xB0 (.replicate 8 recRegI) (.replicate 8 (.direct .MOV .byte .reg8I)) := by
    refine .replicate fun j hj => ?_
    obtain ⟨hw, hop⟩ := regI8 j hj
    refine byte_agrees (c := fun b => .mov (.regI (opReg3 (BitVec.ofNat 8 (0xB0 + j))) (.byte b))) (flag := .none)
      (operands := fun i => [regOperand .byte (opReg3 (BitVec.ofNat 8 (0xB0 + j))), i]) rfl ?_ (fun _ => rfl)
      fun b => ?_
    · rw [recRegI, hw]; rfl
    · rw [exec, execMov, MovForm.opcode, hop]; rfl
  have rowB8 : OpcodesAgree s 0xB8 (.replicate 8 recRegI) (.replicate 8 (.direct .MOV .word .reg16I)) := by
    refine .replicate fun j hj => ?_
    obtain ⟨hw, hop⟩ := regI16 j hj
    refine word_agrees (c := fun v => .mov (.regI (opReg3 (BitVec.ofNat 8 (0xB8 + j))) (.word v))) (flag := .none)
      (operands := fun i => [regOperand .word (opReg3 (BitVec.ofNat 8 (0xB8 + j))), i]) rfl ?_ (fun _ => rfl)
      fun v => ?_
    · rw [recRegI, hw]; rfl
    · rw [exec, execMov, MovForm.opcode, hop]; rfl
  exact row80.append row88 |>.append row90 |>.append row91 |>.append row98 |>.append rowA0 |>.append rowA8
    |>.append (rowB0.append rowB8)

theorem opcodesC0_agree : OpcodesAgree s 0xC0 opcodesC0 (primaryRowC ++ primaryRowD ++ primaryRowE ++ primaryRowF) := by
  have rowC0 : OpcodesAgree s 0xC0 [unknown, unknown, recWord fun n => .ret (.adjust n), bare (.ret .plain), recGM .les,
      recGM .lds, groupC6, groupC6]
      [.unknown, .unknown, .direct .RET .none .iwStack, .direct .RET .none .bare, .direct .LES .word .gM,
       .direct .LDS .word .gM, .group .gC6 .byte .eI, .group .gC6 .word .eI] :=
    ⟨unknown_agrees, unknown_agrees, word_agrees (operands := fun i => [i]) rfl rfl (fun _ => rfl) fun _ => rfl,
      bare_agrees rfl, gM_agrees fun _ _ => rfl, gM_agrees fun _ _ => rfl, groupC6_byte_agrees, groupC6_word_agrees,
      trivial⟩
  have rowC8 : OpcodesAgree s 0xC8 [unknown, unknown, recWord fun n => .retf (.adjust n), bare (.retf .plain),
      bare .int3, recByte .int, bare .into, bare .iret]
      [.unknown, .unknown, .direct .RETF .none .iwStack, .direct .RETF .none .bare, .direct .INT3 .none .bare,
       .direct .INT .none .ibInt, .direct .INTO .none .bare, .direct .IRET .none .bare] :=
    ⟨unknown_agrees, unknown_agrees, word_agrees (operands := fun i => [i]) rfl rfl (fun _ => rfl) fun _ => rfl,
      bare_agrees rfl, bare_agrees rfl, byte_agrees (operands := fun i => [i]) rfl rfl (fun _ => rfl) fun _ => rfl,
      bare_agrees rfl, bare_agrees rfl, trivial⟩
  have rowD0 : OpcodesAgree s 0xD0 [group2 .one, group2 .one, group2 .cl, group2 .cl, recBase10 .aam, recBase10 .aad,
      unknown, bare .xlat]
      [.group .g2 .byte .eOne, .group .g2 .word .eOne, .group .g2 .byte .eCl, .group .g2 .word .eCl,
       .direct .AAM .none .base10, .direct .AAD .none .base10, .unknown, .direct .XLAT .none .bare] :=
    ⟨group2_agrees rfl (fun _ _ => rfl) (fun _ _ _ => rfl) rfl rfl,
      group2_agrees rfl (fun _ _ => rfl) (fun _ _ _ => rfl) rfl rfl,
      group2_agrees rfl (fun _ _ => rfl) (fun _ _ _ => rfl) rfl rfl,
      group2_agrees rfl (fun _ _ => rfl) (fun _ _ _ => rfl) rfl rfl, base10_agrees rfl, base10_agrees rfl,
      unknown_agrees, bare_agrees rfl, trivial⟩
  have esc : ∀ j < 8, escOpcode (opReg3 (BitVec.ofNat 8 (0xD8 + j)) ++ (0 : BitVec 3)) = BitVec.ofNat 8 (0xD8 + j) := by
    decide
  have rowD8 : OpcodesAgree s 0xD8 (.replicate 8 recEsc) (.replicate 8 (.direct .ESC .word .esc)) :=
    .replicate fun j hj => esc_agrees (esc j hj)
  have rowE0 : OpcodesAgree s 0xE0 [recByte .loopnz, recByte .loopz, recByte .loop, recByte .jcxz,
      recPort fun w b => .inPort (.imm w b), recPort fun w b => .inPort (.imm w b),
      recPort fun w b => .outPort (.imm w b), recPort fun w b => .outPort (.imm w b)]
      [.direct .LOOPNZ .none .rel8, .direct .LOOPZ .none .rel8, .direct .LOOP .none .rel8, .direct .JCXZ .none .rel8,
       .direct .IN .byte .accPort, .direct .IN .word .accPort, .direct .OUT .byte .portAcc,
       .direct .OUT .word .portAcc] :=
    ⟨rel8_agrees fun _ => rfl, rel8_agrees fun _ => rfl, rel8_agrees fun _ => rfl, rel8_agrees fun _ => rfl,
      byte_agrees (operands := fun i => [regOperand .byte 0, i]) rfl rfl (fun _ => rfl) fun _ => rfl,
      byte_agrees (operands := fun i => [regOperand .word 0, i]) rfl rfl (fun _ => rfl) fun _ => rfl,
      byte_agrees (operands := fun i => [i, regOperand .byte 0]) rfl rfl (fun _ => rfl) fun _ => rfl,
      byte_agrees (operands := fun i => [i, regOperand .word 0]) rfl rfl (fun _ => rfl) fun _ => rfl, trivial⟩
  have rowE8 : OpcodesAgree s 0xE8 [recWord fun d => .call (.rel16 d), recWord fun d => .jmp (.rel16 d),
      recFar fun o s => .jmpf (.far o s), recByte fun d => .jmp (.rel8 d), recDx fun w => .inPort (.dx w),
      recDx fun w => .inPort (.dx w), recDx fun w => .outPort (.dx w), recDx fun w => .outPort (.dx w)]
      [.direct .CALL .none .rel16, .direct .JMP .none .rel16, .direct .JMPF .none .far, .direct .JMP .none .rel8,
       .direct .IN .byte .accDx, .direct .IN .word .accDx, .direct .OUT .byte .dxAcc, .direct .OUT .word .dxAcc] :=
    ⟨word_agrees (operands := fun i => [i]) rfl rfl (fun _ => rfl) fun _ => rfl,
      word_agrees (operands := fun i => [i]) rfl rfl (fun _ => rfl) fun _ => rfl, far_agrees fun _ _ => rfl,
      rel8_agrees fun _ => rfl, short_agrees rfl rfl (fun _ => rfl) rfl, short_agrees rfl rfl (fun _ => rfl) rfl,
      short_agrees rfl rfl (fun _ => rfl) rfl, short_agrees rfl rfl (fun _ => rfl) rfl, trivial⟩
  have rowF0 : OpcodesAgree s 0xF0 [bare .lock, unknown, bare .repne, bare .rep, bare .hlt, bare .cmc, group3, group3]
      [.direct .LOCK .none .bare, .unknown, .direct .REPNE .none .bare, .direct .REP .none .bare,
       .direct .HLT .none .bare, .direct .CMC .none .bare, .group .g3 .byte .e, .group .g3 .word .e] :=
    ⟨bare_agrees rfl, unknown_agrees, bare_agrees rfl, bare_agrees rfl, bare_agrees rfl, bare_agrees rfl,
      group3_byte_agrees, group3_word_agrees, trivial⟩
  have rowF8 : OpcodesAgree s 0xF8 [bare .clc, bare .stc, bare .cli, bare .sti, bare .cld, bare .std, group4, group5]
      [.direct .CLC .none .bare, .direct .STC .none .bare, .direct .CLI .none .bare, .direct .STI .none .bare,
       .direct .CLD .none .bare, .direct .STD .none .bare, .group .g4 .byte .e, .group .g5 .word .e] :=
    ⟨bare_agrees rfl, bare_agrees rfl, bare_agrees rfl, bare_agrees rfl, bare_agrees rfl, bare_agrees rfl,
      group4_agrees, group5_agrees, trivial⟩
  exact rowC0.append rowC8 |>.append rowD0 |>.append rowD8 |>.append rowE0 |>.append rowE8 |>.append rowF0
    |>.append rowF8

theorem opcode_agrees (op : Byte) : EntryAgrees s op (opcodeMap.getD op.toNat unknown) (primary op) := by
  have h0 : opcodes00.length = 64 := rfl
  have h4 : opcodes40.length = 64 := rfl
  have h8 : opcodes80.length = 64 := rfl
  have hC : opcodesC0.length = 64 := rfl
  have hlen : opcodeMap.length = 256 := by simp only [opcodeMap, List.length_append, h0, h4, h8, hC]
  have upTo80 := opcodes00_agree.append (by rw [h0]; exact opcodes40_agree (s := s))
  have upToC0 := upTo80.append (by rw [List.length_append, h0, h4]; exact opcodes80_agree (s := s))
  have all : OpcodesAgree s 0 opcodeMap primaryTable := by
    have := upToC0.append (by rw [List.length_append, List.length_append, h0, h4, h8]; exact opcodesC0_agree (s := s))
    simpa only [opcodeMap, primaryTable, List.append_assoc] using this
  have hop : op.toNat < opcodeMap.length := op.isLt.trans_eq hlen.symm
  simpa [primary] using all.getD hop unknown .unknown

end

/-! ### A step at a byte of the buffer -/

theorem fetch_of_read {s : State} {b : Byte} (h : s.buf.read s.pos = some b) : ∃ bs, s.fetch = b :: bs := by
  have hlt : s.pos < s.buf.size := read_eq_some_iff.mp ⟨b, h⟩
  have hb : lookupCell s.pos s.buf.cells = b := by simpa [Memory.read, hlt] using h
  obtain ⟨n, hn⟩ : ∃ n, min maxInstrBytes (s.buf.size - s.pos) = n + 1 :=
    Nat.exists_eq_succ_of_ne_zero (by rw [maxInstrBytes]; omega)
  exact ⟨_, by rw [State.fetch, hn, slice_succ n hlt, hb]⟩

theorem fetch_of_end {s : State} (h : s.pos = s.buf.size) : s.fetch = [] := by
  rw [State.fetch, h, Nat.sub_self, Nat.min_zero, slice_zero]

theorem read_of_fetch {s : State} {b : Byte} {bs : List Byte} (hpos : s.pos ≤ s.buf.size) (h : s.fetch = b :: bs) :
    s.buf.read s.pos = some b := by
  have := holds_fetch hpos
  rw [h] at this
  exact this.1

/-- A segment-override prefix byte decodes to the instruction whose meaning sets `seg` (30_encoding.md R85). -/
theorem decode_segPrefixByte (g : SegmentType) (bs : List Byte) :
    ∃ i ∈ [Instr.prefixES, .prefixCS, .prefixSS, .prefixDS], decode (segPrefixByte g :: bs) = .ok (i, bs) ∧
      ∀ t, exec i t = readSegPrefix g t := by
  cases g with
  | ES => exact ⟨.prefixES, by simp, rfl, fun _ => rfl⟩
  | CS => exact ⟨.prefixCS, by simp, rfl, fun _ => rfl⟩
  | SS => exact ⟨.prefixSS, by simp, rfl, fun _ => rfl⟩
  | DS => exact ⟨.prefixDS, by simp, rfl, fun _ => rfl⟩

theorem mem_segPrefixBytes {b : Byte} : b ∈ segPrefixBytes ↔ ∃ g, b = segPrefixByte g := by
  constructor
  · intro h
    simp only [segPrefixBytes, List.mem_cons, List.not_mem_nil, or_false] at h
    rcases h with rfl | rfl | rfl | rfl
    exacts [⟨.ES, rfl⟩, ⟨.CS, rfl⟩, ⟨.SS, rfl⟩, ⟨.DS, rfl⟩]
  · rintro ⟨g, rfl⟩
    cases g <;> decide

theorem segOfCode_segPrefixByte (g : SegmentType) : segOfCode ((segPrefixByte g).extractLsb' 3 2) = g := by
  cases g <;> rfl

/-- THE MACHINE'S DECODER AND THE ALGORITHM AGREE: on the bytes at the cursor, from an opcode byte on, what the machine
decodes and runs is what the algorithm gives from the opcode's table entry on. -/
theorem decode_answers {s : State} {op : Byte} (hpos : s.pos ≤ s.buf.size) (hread : s.buf.read s.pos = some op)
    (hop : op ∉ segPrefixBytes) :
    Answers s (decode s.fetch) (decodeEntry s.buf s.p0 s.seg op (s.pos + 1) (primary op)) := by
  obtain ⟨bs, hbs⟩ := fetch_of_read hread
  have hw : s.buf.Window (s.pos + 1) 5 bs := (hbs ▸ fetch_window hpos).tail
  have hagrees := opcode_agrees (s := s) op
  rw [hbs, decode]
  cases hte : primary op with
  | segPrefix g =>
    rw [hte] at hagrees
    exact absurd (mem_segPrefixBytes.mpr ⟨g, hagrees.1⟩) hop
  | unknown | direct | group => rw [hte] at hagrees; exact hagrees bs hw

theorem Answers.decodeUnit {s : State} {a : Except Error Instruction} (h : Answers s (decode s.fetch) a) :
    ∃ t, decodeUnit exec s = .next t ∧ t.result = some (resultOf a) := by
  cases hd : decode s.fetch with
  | ok x =>
    rw [hd] at h
    obtain ⟨x, t, rfl, ht, -, hres⟩ := h
    exact ⟨t, (decodeUnit_of_ok hd).trans ht, hres⟩
  | error e =>
    rw [hd] at h
    cases h
    exact ⟨_, decodeUnit_of_error hd, rfl⟩

/-! ### A `DecodeNext` call -/

/-- A `DecodeNext` call in progress that has read nothing but prefixes. -/
structure State.Decoding (s : State) : Prop where
  admitted : s.buf.admitted = true
  start_le : s.p0 ≤ s.pos
  pos_le : s.pos ≤ s.buf.size
  entryPoint : s.entryPoint = .decodeNext
  phase : s.phase = .start
  ready : s.ready = s

theorem ofCall_decoding {B : Memory} {p0 : Nat} (label : String) (mode : OutputValueMode) (hB : B.admitted = true)
    (hp : p0 ≤ B.size) : (State.ofCall .decodeNext B p0 label mode).Decoding where
  admitted := hB
  start_le := le_refl _
  pos_le := hp
  entryPoint := rfl
  phase := rfl
  ready := ready_of_atBoundary (beq_self_eq_true p0)

theorem State.Decoding.step_eq {s : State} (h : s.Decoding) : step s = decodeUnit exec s := by
  have hrun : s.running :=
    ⟨h.admitted, h.pos_le, fun e he => (nomatch h.phase.symm.trans he), by simp [State.returned, h.entryPoint, h.phase],
      by simp [State.exhausted, h.entryPoint]⟩
  rw [step_of_running hrun, h.ready]

/-- The state after a segment-override prefix byte. -/
def State.withPrefix (g : SegmentType) (s : State) : State := { s with pos := s.pos + 1, seg := some g }

theorem State.Decoding.step_of_prefix {s : State} (h : s.Decoding) {g : SegmentType}
    (hread : s.buf.read s.pos = some (segPrefixByte g)) :
    step s = .next (s.withPrefix g) ∧ (s.withPrefix g).Decoding := by
  have hlt : s.pos + 1 ≤ s.buf.size := read_eq_some_iff.mp ⟨_, hread⟩
  obtain ⟨bs, hbs⟩ := fetch_of_read hread
  obtain ⟨i, -, hi, hexec⟩ := decode_segPrefixByte g bs
  have hstart := h.start_le
  refine ⟨?_, h.admitted, hstart.trans (Nat.le_succ _), hlt, h.entryPoint, h.phase, ready_of_not_atBoundary ?_⟩
  · rw [h.step_eq, decodeUnit_of_ok (hbs ▸ hi), hexec, readSegPrefix_ok hlt, State.withPrefix, ← h.phase]
  · have hne : s.pos + 1 ≠ s.p0 := by omega
    simpa [State.atBoundary, State.withPrefix, h.phase] using hne

theorem run_zero (s : State) : Sys2Proof.core.run 0 s = .next s := rfl

theorem run_succ {s t : State} (h : step s = .next t) (k : Nat) :
    Sys2Proof.core.run (k + 1) s = Sys2Proof.core.run k t := by
  have hstep : Sys2Proof.core.step s = .next t := h
  simp only [Host.Core.run, hstep]

/-- Some number of steps ends with this result. -/
def State.EndsWith (s : State) (r : CallResult Instruction) : Prop :=
  ∃ k t, Sys2Proof.core.run k s = .next t ∧ t.result = some r

theorem endsWith_of_step {s t : State} (h : step s = .next t) {r : CallResult Instruction} (ht : t.EndsWith r) :
    s.EndsWith r := by
  obtain ⟨k, u, hu, hres⟩ := ht
  exact ⟨k + 1, u, (run_succ h k).trans hu, hres⟩

theorem readOpcode_of_end {B : Memory} {p0 pos : Nat} (h : B.read pos = none) (fuel : Nat) (seg : Option SegmentType) :
    readOpcode B p0 (fuel + 1) pos seg = .error (endOfStreamError p0 pos) := by
  rw [readOpcode, readByteAt, h]
  rfl

theorem readOpcode_of_prefix {B : Memory} {pos : Nat} {g : SegmentType} (h : B.read pos = some (segPrefixByte g))
    (p0 fuel : Nat) (seg : Option SegmentType) :
    readOpcode B p0 (fuel + 1) pos seg = readOpcode B p0 fuel (pos + 1) (some g) := by
  rw [readOpcode, readByteAt, h]
  exact (if_pos (mem_segPrefixBytes.mpr ⟨g, rfl⟩)).trans (by rw [segOfCode_segPrefixByte])

theorem readOpcode_of_opcode {B : Memory} {pos : Nat} {op : Byte} (h : B.read pos = some op) (hop : op ∉ segPrefixBytes)
    (p0 fuel : Nat) (seg : Option SegmentType) :
    readOpcode B p0 (fuel + 1) pos seg = .ok (op, pos + 1, seg) := by
  rw [readOpcode, readByteAt, h]
  exact if_neg hop

/-- A call in progress ends with what the algorithm gives from its cursor and segment override on. -/
theorem State.Decoding.endsWith {s : State} (h : s.Decoding) {fuel : Nat} (hfuel : s.buf.size - s.pos < fuel) :
    s.EndsWith (resultOf (readOpcode s.buf s.p0 fuel s.pos s.seg >>= fun x =>
      decodeEntry s.buf s.p0 x.2.2 x.1 x.2.1 (primary x.1))) := by
  induction fuel generalizing s with
  | zero => exact absurd hfuel (Nat.not_lt_zero _)
  | succ fuel ih =>
    cases hread : s.buf.read s.pos with
    | none =>
      have hend : s.pos = s.buf.size := by
        have hpos := h.pos_le
        have hlt : ¬ s.pos < s.buf.size := fun hlt => by simp [Memory.read, hlt] at hread
        omega
      have hd : decode s.fetch = .error (.endOfStream 0) := by rw [fetch_of_end hend]; rfl
      rw [readOpcode_of_end hread]
      exact endsWith_of_step (h.step_eq.trans (decodeUnit_of_error hd)) ⟨0, _, run_zero _, rfl⟩
    | some b =>
      by_cases hb : b ∈ segPrefixBytes
      · obtain ⟨g, rfl⟩ := mem_segPrefixBytes.mp hb
        obtain ⟨hstep, hdec⟩ := h.step_of_prefix hread
        have hlt : s.pos < s.buf.size := read_eq_some_iff.mp ⟨_, hread⟩
        have hrest := ih hdec (by show s.buf.size - (s.pos + 1) < fuel; omega)
        rw [readOpcode_of_prefix hread]
        exact endsWith_of_step hstep hrest
      · obtain ⟨t, ht, hres⟩ := (decode_answers h.pos_le hread hb).decodeUnit
        rw [readOpcode_of_opcode hread hb]
        exact endsWith_of_step (h.step_eq.trans ht) ⟨0, t, run_zero t, hres⟩

/-- Settles O23: by induction on the prefix bytes, each a step of the call, up to the opcode, from which on the
machine's decoder and the algorithm agree. -/
theorem machineRefinesDecodeNext : Obligations.MachineRefinesDecodeNext := by
  intro B p0 label mode hB hp
  have h := (ofCall_decoding label mode hB hp).endsWith (fuel := B.size - p0 + 1) (Nat.lt_succ_self _)
  exact h

end Sys2Proof.Machine

/-! What each instruction completes with, and the forms of the r/m operand. -/

namespace Sys2Proof.Machine

/-! ### The rows of the tables -/

theorem exec_bareTable : ∀ row ∈ bareTable, ∀ s, exec row.1 s = decodeShort row.2.1 row.2.2 .none [] s := by
  intro row hrow s
  fin_cases hrow <;> rfl

theorem exec_stringTable :
    ∀ row ∈ stringTable, ∀ s, exec row.1 s = decodeShort row.2.1 row.2.2.1 row.2.2.2 [] s := by
  intro row hrow s
  fin_cases hrow <;> rfl

theorem exec_unaryTable : ∀ row ∈ unaryTable, ∃ slot, ∀ w e s, exec (row.1 w e) s = decodeUnary slot row.2 w e s := by
  intro row hrow
  fin_cases hrow <;> exact ⟨_, fun _ _ _ => rfl⟩

theorem exec_shiftTable :
    ∀ row ∈ shiftTable, ∃ slot, ∀ n w e s, exec (row.1 n w e) s = decodeShift slot row.2 n w e s := by
  intro row hrow
  fin_cases hrow <;> exact ⟨_, fun _ _ _ _ => rfl⟩

theorem exec_loadAddressTable :
    ∀ row ∈ loadAddressTable, ∀ g m s, exec (row.1 g m) s = decodeGM row.2.1 row.2.2 g m s := by
  intro row hrow g m s
  fin_cases hrow <;> rfl

theorem exec_shortJumpTable : ∀ row ∈ shortJumpTable, ∀ d s, exec (row.1 d) s = decodeRel8 row.2.1 row.2.2 d s := by
  intro row hrow d s
  fin_cases hrow <;> rfl

/-! ### The instructions complete -/

/-- Settles O31: each of the four is the meaning `readSegPrefix`. -/
theorem prefixBytesSetSegment : Obligations.PrefixBytesSetSegment :=
  fun _ hroom => ⟨readSegPrefix_ok hroom, readSegPrefix_ok hroom, readSegPrefix_ok hroom, readSegPrefix_ok hroom⟩

/-- Settles O33: each row is a recipe of the opcode byte alone. -/
theorem bareInstructionsComplete : Obligations.BareInstructionsComplete :=
  ⟨fun row hrow s hroom => exec_bareTable row hrow s ▸ decodeShort_completes _ _ _ _ hroom,
    fun row hrow s hroom => exec_stringTable row hrow s ▸ decodeShort_completes _ _ _ _ hroom⟩

/-- Settles O36: each row is a recipe of the opcode and the r/m operand, its count no byte of its own. -/
theorem unaryAndShiftGroupsComplete : Obligations.UnaryAndShiftGroupsComplete := by
  intro s w e _ hroom
  refine ⟨fun row hrow => ?_, fun row hrow => ?_⟩
  · obtain ⟨slot, hexec⟩ := exec_unaryTable row hrow
    exact hexec w e s ▸ decodeRM_completes _ slot e _ _ _ hroom
  · obtain ⟨slot, hexec⟩ := exec_shiftTable row hrow
    exact ⟨hexec .one w e s ▸ decodeRM_completes _ slot e _ _ _ hroom,
      hexec .cl w e s ▸ decodeRM_completes _ slot e _ _ _ hroom⟩

/-- Settles O40: by the port forms' recipes, the opcode with or without a port byte. -/
theorem portFormsComplete : Obligations.PortFormsComplete :=
  fun _ _ =>
    ⟨fun b hroom => ⟨decodeImm_completes _ (.byte b .portNumber) _ _ _ hroom,
        decodeImm_completes _ (.byte b .portNumber) _ _ _ hroom⟩,
      fun hroom => ⟨decodeShort_completes _ _ _ _ hroom, decodeShort_completes _ _ _ _ hroom⟩⟩

/-- Settles O41: each row is the recipe of a register and a memory operand. -/
theorem loadAddressFormsComplete : Obligations.LoadAddressFormsComplete :=
  fun row hrow s g m _ hroom =>
    exec_loadAddressTable row hrow g m s ▸ decodeRM_completes _ g (.mem m) _ _ _ hroom

/-- Settles O42: each row is the recipe of a displacement byte. -/
theorem shortJumpsComplete : Obligations.ShortJumpsComplete :=
  fun row hrow s d hroom =>
    exec_shortJumpTable row hrow d s ▸ decodeImm_completes _ (.byte d .relativeJumpDisplacement) _ _ _ hroom

/-- Settles O43: by the recipes of a displacement and of an r/m operand. -/
theorem nearTransfersComplete : Obligations.NearTransfersComplete :=
  fun _ =>
    ⟨fun d hroom => ⟨decodeImm_completes _ (.word d .relativeJumpDisplacement) _ _ _ hroom,
        decodeImm_completes _ (.word d .relativeJumpDisplacement) _ _ _ hroom⟩,
      fun d hroom => decodeImm_completes _ (.byte d .relativeJumpDisplacement) _ _ _ hroom,
      fun e _ hroom => ⟨decodeRM_completes _ 2 e _ _ _ hroom, decodeRM_completes _ 4 e _ _ _ hroom⟩⟩

/-- Settles O44: by the recipes of a far pointer, of a memory operand, of the opcode alone and of a stack adjust
word. -/
theorem farTransfersAndReturnsComplete : Obligations.FarTransfersAndReturnsComplete :=
  fun _ =>
    ⟨fun o g hroom => ⟨decodeFarPointer_completes _ (.word o .farOffset) (.word g .farSegment) _ _ _ hroom,
        decodeFarPointer_completes _ (.word o .farOffset) (.word g .farSegment) _ _ _ hroom⟩,
      fun m _ hroom => ⟨decodeRM_completes _ 3 (.mem m) _ _ _ hroom, decodeRM_completes _ 5 (.mem m) _ _ _ hroom⟩,
      fun hroom => ⟨decodeShort_completes _ _ _ _ hroom, decodeShort_completes _ _ _ _ hroom⟩,
      fun n hroom => ⟨decodeImm_completes _ (.word n .stackAdjust) _ _ _ hroom,
        decodeImm_completes _ (.word n .stackAdjust) _ _ _ hroom⟩⟩

/-- The opcode of an escape code holds its upper three bits (30_encoding.md R111). -/
theorem escOpcode_append : ∀ hi lo : BitVec 3, escOpcode (hi ++ lo) = 0b11011#5 ++ hi := by decide

theorem escImm_append : ∀ hi lo : BitVec 3, escImm (hi ++ lo) = .byte (0#2 ++ hi ++ lo) .escapeCode := by decide

/-- Settles O45: by the recipes of one immediate byte, and of ESC's opcode and r/m operand, whose code no byte holds
alone. -/
theorem interruptAdjustEscapeComplete : Obligations.InterruptAdjustEscapeComplete := by
  refine fun s => ⟨fun hroom => ⟨fun n => decodeImm_completes _ (.byte n .interruptType) _ _ _ hroom,
    decodeImm_completes _ (.byte 0x0A .none) _ _ _ hroom, decodeImm_completes _ (.byte 0x0A .none) _ _ _ hroom⟩, ?_⟩
  intro hi lo e _ hroom
  rw [← escOpcode_append hi lo, ← escImm_append]
  exact decodeRM_completes _ _ e _ _ _ hroom

/-! ### The r/m operand -/

theorem readRM_of_register {m : Byte} (h : modField m = 3) (k : RM → Nat → Decoder) :
    readRM m k = k (.reg (rmField m)) 2 := if_pos h

theorem readRM_of_memory {m : Byte} (h : modField m ≠ 3) (k : RM → Nat → Decoder) :
    readRM m k = readMem m fun x => k (.mem x) := if_neg h

theorem readMem_of_direct {m : Byte} (h0 : modField m = 0) (h6 : rmField m = 6) (k : Mem → Nat → Decoder) :
    readMem m k = readWord 2 fun a => k (.direct a) 4 := by
  rw [readMem, if_pos h0, if_pos h6]

theorem readMem_of_noDisp {m : Byte} (h0 : modField m = 0) (h6 : rmField m ≠ 6) (k : Mem → Nat → Decoder) :
    readMem m k = k (.noDisp (rmField m)) 2 := by
  rw [readMem, if_pos h0, if_neg h6]

theorem readMem_of_disp8 {m : Byte} (h1 : modField m = 1) (k : Mem → Nat → Decoder) :
    readMem m k = readByte 2 fun b => k (.disp8 (rmField m) b) 3 := by
  rw [readMem, h1]; rfl

theorem readMem_of_disp16 {m : Byte} (h2 : modField m = 2) (k : Mem → Nat → Decoder) :
    readMem m k = readWord 2 fun v => k (.disp16 (rmField m) v) 4 := by
  rw [readMem, h2]; rfl

/-- Settles O13: by the cases of `mod`, and of `rm` where `mod` is 0. -/
theorem rmOperandForms : Obligations.RmOperandForms := by
  intro w seg m rest
  refine ⟨fun h3 => ⟨?_, rfl⟩, fun h0 h6 lo hi => ⟨?_, rfl⟩, fun h0 h6 => ⟨?_, rfl⟩, fun h1 b => ⟨?_, rfl⟩,
    fun h2 lo hi => ⟨?_, rfl⟩⟩
  · rw [readRM_of_register h3]; rfl
  · rw [readRM_of_memory (by rw [h0]; decide), readMem_of_direct h0 h6]; rfl
  · rw [readRM_of_memory (by rw [h0]; decide), readMem_of_noDisp h0 h6]; rfl
  · rw [readRM_of_memory (by rw [h1]; decide), readMem_of_disp8 h1]; rfl
  · rw [readRM_of_memory (by rw [h2]; decide), readMem_of_disp16 h2]; rfl

/-! ### The instruction at the cursor -/

theorem decode_of_holds {s : State} {i : Instr} (hwf : i.wellFormed = true) (h : s.holds i) :
    ∃ rest, decode s.ready.fetch = .ok (i, rest) := by
  obtain ⟨rest, hfetch⟩ := h
  exact ⟨rest, by rw [ready_fetch, hfetch]; exact decodeOfEncode i rest hwf⟩

theorem step_of_holds {s : State} {i : Instr} (hrun : s.running) (hwf : i.wellFormed = true) (h : s.holds i) :
    step s = exec i s.ready := by
  obtain ⟨rest, hdecode⟩ := decode_of_holds hwf h
  rw [step_of_running hrun, decodeUnit_of_ok hdecode]

/-- Settles O14: the fetched bytes begin with the instruction's, so they decode to it. -/
theorem stepRunsDecodedInstruction : Obligations.StepRunsDecodedInstruction :=
  fun _ _ hrun hwf h => ⟨step_of_holds hrun hwf h, ready_of_atBoundary, ready_of_not_atBoundary⟩

/-! ### Any number of prefixes -/

theorem getLast?_cons_or {α : Type} (a : α) (as : List α) (x : Option α) :
    (a :: as).getLast?.or x = as.getLast?.or (some a) := by
  rw [List.getLast?_cons, Option.some_or]
  cases as.getLast? <;> rfl

/-- A call in progress whose next bytes are prefixes reads them all, and the last one's segment is in force. -/
theorem State.Decoding.run_prefixes {segs : List SegmentType} {s : State} (h : s.Decoding)
    (hbytes : ∀ k, k < segs.length → s.buf.read (s.pos + k) = (segs[k]?).map segPrefixByte) :
    Sys2Proof.core.run segs.length s =
      .next { s with pos := s.pos + segs.length, seg := segs.getLast?.or s.seg } := by
  induction segs generalizing s with
  | nil => rfl
  | cons g segs ih =>
    obtain ⟨hstep, hdec⟩ := h.step_of_prefix (hbytes 0 (Nat.succ_pos _))
    have hrest : ∀ k, k < segs.length → (s.withPrefix g).buf.read ((s.withPrefix g).pos + k) =
        (segs[k]?).map segPrefixByte := by
      intro k hk
      rw [show (s.withPrefix g).pos + k = s.pos + (k + 1) from Nat.add_right_comm s.pos 1 k]
      exact hbytes (k + 1) (Nat.succ_lt_succ hk)
    rw [List.length_cons, run_succ hstep, ih hdec hrest, getLast?_cons_or, Nat.add_comm segs.length, ← Nat.add_assoc]
    rfl

/-- Settles O32: the call's first state is a call in progress with no segment in force. -/
theorem lastPrefixWins : Obligations.LastPrefixWins := by
  intro B p0 label mode segs hB hle hbytes
  have h := (ofCall_decoding label mode hB (Nat.le_of_add_right_le hle)).run_prefixes hbytes
  rwa [show (State.ofCall .decodeNext B p0 label mode).seg = none from rfl, Option.or_none] at h

end Sys2Proof.Machine

/-! What a completed call counts. -/

namespace Sys2Proof.Machine

/-! ### The length -/

theorem opcode_of_decode {i : Instr} {rest bs : List Byte} {op : Byte} (hdecode : decode (op :: bs) = .ok (i, rest))
    (hi : i ∉ [Instr.prefixES, .prefixCS, .prefixSS, .prefixDS]) : op ∉ segPrefixBytes := by
  intro hop
  obtain ⟨g, rfl⟩ := mem_segPrefixBytes.mp hop
  obtain ⟨j, hj, hdecode', -⟩ := decode_segPrefixByte g bs
  cases hdecode.symm.trans hdecode'
  exact hi hj

/-- An instruction at the cursor that is no prefix completes. -/
theorem exec_completes_of_decode {s : State} {i : Instr} {rest : List Byte} (hpos : s.pos ≤ s.buf.size)
    (hdecode : decode s.fetch = .ok (i, rest)) (hi : i ∉ [Instr.prefixES, .prefixCS, .prefixSS, .prefixDS]) :
    ∃ t, exec i s = .next t ∧ t.phase = .complete := by
  cases hfetch : s.fetch with
  | nil => rw [hfetch] at hdecode; cases hdecode
  | cons op bs =>
    have h := decode_answers hpos (read_of_fetch hpos hfetch) (opcode_of_decode (hfetch ▸ hdecode) hi)
    rw [hdecode] at h
    obtain ⟨x, t, -, ht, hc, -⟩ := h
    exact ⟨t, ht, hc⟩

theorem holds_length_le {s : State} {i : Instr} (hpos : s.pos ≤ s.buf.size) (h : s.holds i) :
    s.pos + (encode i).length ≤ s.buf.size := by
  obtain ⟨rest, hfetch⟩ := h
  have hle := fetch_length_le hpos
  rw [hfetch, List.length_append] at hle
  omega

/-- Settles O30: the step runs the instruction's plan, which reads exactly the bytes of its encoding. -/
theorem lengthCountsEveryByte : Obligations.LengthCountsEveryByte := by
  intro s i hrun hwf hi hprefix hp0
  obtain ⟨hadmitted, hpos, -, -, -⟩ := id hrun
  obtain ⟨rest, hdecode⟩ := decode_of_holds hwf hi
  obtain ⟨t, ht, hc⟩ := exec_completes_of_decode (by simpa using hpos) hdecode hprefix
  have hstep : step s = .next t := (step_of_holds hrun hwf hi).trans ht
  obtain ⟨j, rest', p, hp, hdecode', ⟨hop, -⟩, rfl⟩ := step_complete hrun hstep hc
  rw [ready_fetch] at hdecode
  cases hdecode.symm.trans hdecode'
  obtain ⟨u, hu, hreads⟩ := exec_readsOnly i s.ready
  cases ht.symm.trans hu
  have hstart : (p.fields.after p.op s.ready).p0 = s.ready.p0 := hreads.p0
  have hend : s.ready.pos + (encode i).length = (p.fields.after p.op s.ready).pos :=
    (hreads.of_not_failed (by simp)).2
  have hlength : (p.fields.after p.op s.ready).pos - (p.fields.after p.op s.ready).p0 =
      (s.pos - s.ready.p0) + (encode i).length := by
    rw [hstart, ← hend, ready_pos]; omega
  have hone : 1 ≤ (encode i).length := by rw [hp.encode_eq]; exact Nat.succ_pos _
  have hroom := holds_length_le hpos hi
  have hsize : s.buf.size ≤ 2 ^ 32 - 1 := of_decide_eq_true hadmitted
  exact ⟨_, _, hstep, complete_result .., hlength, rfl, (Nat.le_add_left_of_le hone).trans_eq hlength.symm,
    hlength.trans_lt (by omega), by simpa using hop⟩

end Sys2Proof.Machine

/-! What a decode reads. -/

namespace Sys2Proof.Machine

theorem le_size_of_read {B : Memory} {q : Nat} {b : Byte} (h : B.read q = some b) : q ≤ B.size :=
  Nat.le_of_succ_le (read_eq_some_iff.mp ⟨b, h⟩)

theorem Memory.Holds.congr {B B' : Memory} {q : Nat} {bs : List Byte} (h : B.Holds q bs)
    (hsame : ∀ a, q ≤ a → a < q + bs.length → B'.read a = B.read a) : B'.Holds q bs := by
  induction bs generalizing q with
  | nil => trivial
  | cons b bs ih =>
    rw [List.length_cons] at hsame
    refine ⟨(hsame q (le_refl q) (by omega)).trans h.1, ih h.2 fun a ha hlt => hsame a (by omega) (by omega)⟩

theorem Memory.Holds.length_le {B : Memory} {q : Nat} {bs : List Byte} (h : B.Holds q bs) (hq : q ≤ B.size) :
    q + bs.length ≤ B.size := by
  induction bs generalizing q with
  | nil => exact hq
  | cons b bs ih =>
    have := ih h.2 (read_eq_some_iff.mp ⟨b, h.1⟩)
    rw [List.length_cons]; omega

/-- Of two runs of bytes that stand at one offset, the shorter begins the longer. -/
theorem Memory.Holds.begins {B : Memory} {q : Nat} {bs cs : List Byte} (hb : B.Holds q bs) (hc : B.Holds q cs)
    (hle : bs.length ≤ cs.length) : ∃ ds, cs = bs ++ ds := by
  induction bs generalizing q cs with
  | nil => exact ⟨cs, rfl⟩
  | cons b bs ih =>
    cases cs with
    | nil => cases hle
    | cons c cs =>
      obtain ⟨ds, rfl⟩ := ih hb.2 hc.2 (Nat.le_of_succ_le_succ hle)
      exact ⟨ds, by rw [Option.some_inj.mp (hb.1.symm.trans hc.1), List.cons_append]⟩

/-- What stands at the cursor and is no longer than an instruction begins the fetched bytes. -/
theorem fetch_of_holds {s : State} {bs : List Byte} (h : s.buf.Holds s.pos bs) (hpos : s.pos ≤ s.buf.size)
    (hlen : bs.length ≤ maxInstrBytes) : ∃ rest, s.fetch = bs ++ rest :=
  h.begins (holds_fetch hpos) (by have := h.length_le hpos; rw [fetch_length]; omega)

/-- The state of a call in progress on buffer `B` with the cursor at `q`. -/
def State.onBuffer (B : Memory) (p0 q : Nat) (seg : Option SegmentType) : State :=
  { State.ofCall .decodeNext B p0 "" .asInteger with pos := q, seg := seg }

/-- What a plan's result counts: its own bytes and those before the cursor. -/
def Plan.instruction (p : Plan) (p0 q : Nat) (seg : Option SegmentType) : Instruction :=
  ⟨p.op, q + (p.op :: p.fields.bytes).length - p0, p.type, p.width, p.operands seg⟩

section
variable {B : Memory} {p0 q : Nat} {seg : Option SegmentType} {op : Byte} {i : Instr}

/-- Where the bytes at the cursor decode to an instruction with a plan, the algorithm gives the plan's result. -/
theorem decodeEntry_of_decode {p : Plan} {rest : List Byte} (hread : B.read q = some op) (hop : op ∉ segPrefixBytes)
    (hp : p.Of i) (hdecode : decode (State.onBuffer B p0 q seg).fetch = .ok (i, rest)) :
    decodeEntry B p0 seg op (q + 1) (primary op) = .ok (p.instruction p0 q seg) := by
  have h := decode_answers (s := .onBuffer B p0 q seg) (le_size_of_read hread) hread hop
  rw [hdecode] at h
  obtain ⟨x, t, hx, ht, hc, hres⟩ := h
  cases Plan.run_complete ((hp.exec_eq _).symm.trans ht) hc
  obtain ⟨u, hu, hreads⟩ := exec_readsOnly i (.onBuffer B p0 q seg)
  cases ht.symm.trans hu
  have hend := (hreads.of_not_failed (by simp)).2
  have hstart := hreads.p0
  rw [complete_result, Fields.after_op, ← complete_pos, ← complete_p0, hstart, ← hend, hp.encode_eq] at hres
  cases hres
  exact hx

/-- What the algorithm gives from an opcode byte on is the result of a plan, whose bytes stand at that byte. -/
theorem decodeEntry_ok {x : Instruction} (hread : B.read q = some op) (hop : op ∉ segPrefixBytes)
    (hx : decodeEntry B p0 seg op (q + 1) (primary op) = .ok x) :
    ∃ (i : Instr) (p : Plan), p.Of i ∧ i.wellFormed = true ∧ B.Holds q (encode i) ∧
      (encode i).length ≤ maxInstrBytes ∧ x = p.instruction p0 q seg := by
  have hpos : q ≤ B.size := le_size_of_read hread
  have h := decode_answers (s := .onBuffer B p0 q seg) hpos hread hop
  cases hdecode : decode (State.onBuffer B p0 q seg).fetch with
  | error e => rw [hdecode] at h; cases h.symm.trans hx
  | ok r =>
    obtain ⟨i, rest⟩ := r
    rw [hdecode] at h
    obtain ⟨-, t, -, ht, hc, -⟩ := h
    obtain ⟨p, hp, -⟩ := exec_complete ht hc
    cases (decodeEntry_of_decode hread hop hp hdecode).symm.trans hx
    obtain ⟨hwf, hfetch⟩ := decode_ok hdecode
    have hholds := holds_fetch (s := .onBuffer B p0 q seg) hpos
    have hlen : (State.onBuffer B p0 q seg).fetch.length ≤ maxInstrBytes := by rw [fetch_length]; omega
    rw [hfetch] at hholds hlen
    exact ⟨i, p, hp, hwf, (Memory.holds_append.mp hholds).1,
      (Nat.le_of_add_right_le (List.length_append ▸ hlen)), rfl⟩

theorem decodeEntry_of_holds {p : Plan} (hread : B.read q = some op) (hop : op ∉ segPrefixBytes) (hp : p.Of i)
    (hwf : i.wellFormed = true) (hholds : B.Holds q (encode i)) (hlen : (encode i).length ≤ maxInstrBytes) :
    decodeEntry B p0 seg op (q + 1) (primary op) = .ok (p.instruction p0 q seg) := by
  obtain ⟨rest, hfetch⟩ := fetch_of_holds (s := .onBuffer B p0 q seg) hholds
    (le_size_of_read hread) hlen
  exact decodeEntry_of_decode hread hop hp (hfetch ▸ decodeOfEncode i rest hwf)

end

/-- What the algorithm gives from offset `pos` on, it gives on every buffer with the same bytes up to the instruction's
end. -/
theorem readOpcode_ok {B : Memory} {p0 fuel pos : Nat} {seg : Option SegmentType} {x : Instruction}
    (h : (readOpcode B p0 fuel pos seg >>= fun y => decodeEntry B p0 y.2.2 y.1 y.2.1 (primary y.1)) = .ok x)
    (hp0 : p0 ≤ pos) :
    pos < p0 + x.length ∧ ∀ (B' : Memory) (fuel' : Nat), B'.size - pos < fuel' →
      (∀ a, p0 ≤ a → a < p0 + x.length → B'.read a = B.read a) →
      (readOpcode B' p0 fuel' pos seg >>= fun y => decodeEntry B' p0 y.2.2 y.1 y.2.1 (primary y.1)) = .ok x := by
  induction fuel generalizing pos seg with
  | zero => cases h
  | succ fuel ih =>
    cases hread : B.read pos with
    | none => rw [readOpcode_of_end hread] at h; cases h
    | some b =>
      by_cases hb : b ∈ segPrefixBytes
      · obtain ⟨g, rfl⟩ := mem_segPrefixBytes.mp hb
        rw [readOpcode_of_prefix hread] at h
        obtain ⟨hlt, hB'⟩ := ih h (Nat.le_succ_of_le hp0)
        refine ⟨Nat.lt_of_succ_lt hlt, fun B' fuel' hfuel hsame => ?_⟩
        have hread' := (hsame pos hp0 (Nat.lt_of_succ_lt hlt)).trans hread
        have hsize : pos < B'.size := read_eq_some_iff.mp ⟨_, hread'⟩
        obtain ⟨k, rfl⟩ := Nat.exists_eq_succ_of_ne_zero (Nat.ne_zero_of_lt hfuel)
        rw [readOpcode_of_prefix hread']
        exact hB' B' k (by omega) hsame
      · rw [readOpcode_of_opcode hread hb] at h
        obtain ⟨i, p, hp, hwf, hholds, hlen, rfl⟩ := decodeEntry_ok hread hb h
        have hend : p0 + (p.instruction p0 pos seg).length = pos + (encode i).length := by
          rw [hp.encode_eq]; show p0 + (_ - p0) = _; omega
        have hlt : pos < pos + (encode i).length := by rw [hp.encode_eq, List.length_cons]; omega
        refine ⟨hend ▸ hlt, fun B' fuel' hfuel hsame => ?_⟩
        rw [hend] at hsame
        have hread' := (hsame pos hp0 hlt).trans hread
        obtain ⟨k, rfl⟩ := Nat.exists_eq_succ_of_ne_zero (Nat.ne_zero_of_lt hfuel)
        rw [readOpcode_of_opcode hread' hb]
        exact decodeEntry_of_holds hread' hb hp hwf (hholds.congr fun a ha hlt => hsame a (hp0.trans ha) hlt) hlen

/-- Settles O25: every byte that the algorithm reads lies within the instruction it gives. -/
theorem bytesOutsideInstructionDoNotMatter : Obligations.BytesOutsideInstructionDoNotMatter :=
  fun _ B' p0 _ hx hsame => (readOpcode_ok hx (le_refl p0)).2 B' _ (Nat.lt_succ_self _) hsame

end Sys2Proof.Machine

/-! What a step refuses: the opcode bytes, group slots and second bytes with no meaning. -/

namespace Sys2Proof.Machine

/-! ### The errors that reading raises -/

/-- The algorithm can fail only by the end of the stream. -/
def EndsOnly {α : Type} (a : Except Error α) : Prop := ∀ e, a = .error e → e.kind = .unexpectedEndOfStream

section
variable {α β : Type} {B : Memory} {p0 pos : Nat}

theorem endsOnly_ok (x : α) : EndsOnly (.ok x) := fun _ h => nomatch h

theorem EndsOnly.bind_of_ok {a : Except Error α} {f : α → Except Error β} (ha : EndsOnly a)
    (hf : ∀ x, a = .ok x → EndsOnly (f x)) : EndsOnly (a >>= f) := by
  cases a with
  | error d => exact fun e h => ha e (by cases h; rfl)
  | ok x => exact hf x rfl

theorem EndsOnly.bind {a : Except Error α} {f : α → Except Error β} (ha : EndsOnly a) (hf : ∀ x, EndsOnly (f x)) :
    EndsOnly (a >>= f) := ha.bind_of_ok fun x _ => hf x

theorem read_of_readByteAt {x : Byte × Nat} (h : readByteAt B p0 pos = .ok x) : B.read pos = some x.1 := by
  rw [readByteAt] at h
  split at h <;> cases h
  assumption

theorem readByteAt_endsOnly : EndsOnly (readByteAt B p0 pos) := by
  intro e h
  rw [readByteAt] at h
  split at h <;> cases h
  rfl

theorem readWordAt_endsOnly : EndsOnly (readWordAt B p0 pos) := by
  intro e h
  rw [readWordAt] at h
  split at h <;> cases h
  rfl

theorem readByteImm_endsOnly (flag : ImmediateFlag) : EndsOnly (readByteImm B p0 flag pos) :=
  readByteAt_endsOnly.bind fun _ => endsOnly_ok _

theorem readWordImm_endsOnly (flag : ImmediateFlag) : EndsOnly (readWordImm B p0 flag pos) :=
  readWordAt_endsOnly.bind fun _ => endsOnly_ok _

theorem readImm_endsOnly (w : OpWidth) : EndsOnly (readImm B p0 w pos) := by
  cases w with
  | byte => exact readByteAt_endsOnly.bind fun _ => endsOnly_ok _
  | word => exact readWordAt_endsOnly.bind fun _ => endsOnly_ok _

theorem resolveRM_endsOnly (seg : Option SegmentType) (mod : BitVec 2) (rm : BitVec 3) (w : OpWidth) :
    EndsOnly (resolveRM B p0 seg mod rm w pos) := by
  rw [resolveRM]
  split
  · exact endsOnly_ok _
  · split
    · exact readWordAt_endsOnly.bind fun _ => endsOnly_ok _
    · split
      · exact endsOnly_ok _
      · split
        · exact readByteAt_endsOnly.bind fun _ => endsOnly_ok _
        · exact readWordAt_endsOnly.bind fun _ => endsOnly_ok _

theorem buildModRM_endsOnly (recipe : Recipe) (w : OpWidth) (E : Operand) (reg : BitVec 3) (op : Byte) :
    EndsOnly (buildModRM B p0 recipe w E reg op pos) := by
  cases recipe with
  | eI => exact (readImm_endsOnly w).bind fun _ => endsOnly_ok _
  | eIs => exact readByteAt_endsOnly.bind fun _ => endsOnly_ok _
  | _ => exact endsOnly_ok _

theorem buildPlain_endsOnly {recipe : Recipe} (h : recipe ≠ .base10) (w : OpWidth) (seg : Option SegmentType)
    (op : Byte) : EndsOnly (buildPlain B p0 recipe w seg op pos) := by
  cases recipe with
  | base10 => exact absurd rfl h
  | accI => exact (readImm_endsOnly w).bind fun _ => endsOnly_ok _
  | reg8I | rel8 | accPort | portAcc | ibInt => exact (readByteImm_endsOnly _).bind fun _ => endsOnly_ok _
  | reg16I | rel16 | iwStack => exact (readWordImm_endsOnly _).bind fun _ => endsOnly_ok _
  | far => exact (readWordImm_endsOnly _).bind fun _ => (readWordImm_endsOnly _).bind fun _ => endsOnly_ok _
  | accMoffs | moffsAcc => exact readWordAt_endsOnly.bind fun _ => endsOnly_ok _
  | _ => exact endsOnly_ok _

theorem finishModRM_endsOnly {seg : Option SegmentType} {op m : Byte} {type : InstructionType} {width : DataWidth}
    {recipe : Recipe} (h : badFields recipe (modField m) (regField m) = false) :
    EndsOnly (finishModRM B p0 seg op m type width recipe pos) := by
  rw [finishModRM_eq h]
  exact (resolveRM_endsOnly _ _ _ _).bind fun _ => (buildModRM_endsOnly _ _ _ _ _).bind fun _ => endsOnly_ok _

end

/-! ### What a table entry refuses -/

/-- The recipe refuses the second byte `m` (30_encoding.md R109, R112). -/
def Recipe.refuses (m : Byte) (recipe : Recipe) : Bool :=
  badFields recipe (modField m) (regField m) || (recipe == .base10 && m != 0x0A)

theorem Recipe.refuses_iff {m : Byte} {recipe : Recipe} :
    recipe.refuses m = true ↔
      (recipe = .gM ∧ modField m = 3) ∨ (recipe = .m ∧ modField m = 3) ∨
      (recipe = .ewS ∧ 4 ≤ (regField m).toNat) ∨ (recipe = .sEw ∧ (4 ≤ (regField m).toNat ∨ regField m = 1)) ∨
      (recipe = .base10 ∧ m ≠ 0x0A) := by
  cases recipe <;> simp [Recipe.refuses, badFields]

/-- The recipe's error for the second byte `m`, if it has one. -/
def Recipe.refusal (m : Byte) (recipe : Recipe) : Option DecodeError :=
  if recipe.refuses m then some (.invalidOperand m) else none

@[simp] theorem Recipe.refusal_eq_some {m : Byte} {recipe : Recipe} {e : DecodeError} :
    recipe.refusal m = some e ↔ recipe.refuses m = true ∧ .invalidOperand m = e := by
  simp [Recipe.refusal]

@[simp] theorem Recipe.refusal_eq_none {m : Byte} {recipe : Recipe} :
    recipe.refusal m = none ↔ recipe.refuses m = false := by
  simp [Recipe.refusal]

/-- The entry's slot `reg` is empty (30_encoding.md R108). -/
def TableEntry.emptySlot (reg : BitVec 3) : TableEntry → Bool
  | .group g _ column => (groupSlot g column reg).isNone
  | _ => false

/-- The entry's recipe, in a group that of slot `reg`. -/
def TableEntry.recipeAt (reg : BitVec 3) : TableEntry → Option Recipe
  | .direct _ _ recipe => some recipe
  | .group g _ column => (groupSlot g column reg).map Prod.snd
  | _ => none

/-- The error that the entry of opcode `op` has for the byte after it, if it has one. -/
def TableEntry.refusal (op : Byte) (second : Option Byte) : TableEntry → Option DecodeError
  | .unknown => some (.unknownOpcode op none)
  | .segPrefix _ => none
  | .direct _ _ recipe => second.bind fun m => recipe.refusal m
  | .group g _ column => second.bind fun m =>
    match groupSlot g column (regField m) with
    | none => some (.unknownOpcode op (some (regField m)))
    | some (_, recipe) => recipe.refusal m

section
variable {op m : Byte} {te : TableEntry}

theorem refusal_unknownOpcode_iff {second : Option Byte} :
    te.refusal op second = some (.unknownOpcode op none) ↔ te = .unknown := by
  cases te with
  | unknown | segPrefix | direct => simp [TableEntry.refusal, Option.bind_eq_some_iff]
  | group g width column =>
    simp only [TableEntry.refusal, Option.bind_eq_some_iff, reduceCtorEq, iff_false]
    rintro ⟨m, -, h⟩
    split at h <;> simp at h

theorem refusal_emptySlot_iff :
    te.refusal op (some m) = some (.unknownOpcode op (some (regField m))) ↔ te.emptySlot (regField m) = true := by
  cases te with
  | unknown | segPrefix | direct => simp [TableEntry.refusal, TableEntry.emptySlot]
  | group g width column =>
    cases h : groupSlot g column (regField m) <;> simp [TableEntry.refusal, TableEntry.emptySlot, h]

theorem refusal_invalidOperand_iff :
    te.refusal op (some m) = some (.invalidOperand m) ↔
      ∃ recipe, te.recipeAt (regField m) = some recipe ∧ recipe.refuses m = true := by
  cases te with
  | unknown | segPrefix | direct => simp [TableEntry.refusal, TableEntry.recipeAt]
  | group g width column =>
    cases h : groupSlot g column (regField m) <;> simp [TableEntry.refusal, TableEntry.recipeAt, h]

end

section
variable {B : Memory} {p0 pos : Nat} {seg : Option SegmentType} {op m : Byte} {te : TableEntry}
  {type : InstructionType} {width : DataWidth} {recipe : Recipe}

theorem decodeEntry_modrm (hrecipe : recipe.hasModRM = true) (hm : B.read pos = some m) :
    decodeEntry B p0 seg op pos (.direct type width recipe) =
      finishModRM B p0 seg op m type width recipe (pos + 1) := by
  rw [decodeEntry, if_pos hrecipe, readByteAt, hm]; rfl

theorem decodeEntry_plain (hrecipe : recipe.hasModRM = false) :
    decodeEntry B p0 seg op pos (.direct type width recipe) =
      buildPlain B p0 recipe width.opWidth seg op pos >>= builtInstruction p0 op type width := by
  rw [decodeEntry, hrecipe]; rfl

theorem decodeEntry_group {g : GroupId} (hm : B.read pos = some m) :
    decodeEntry B p0 seg op pos (.group g width recipe) =
      match groupSlot g recipe (regField m) with
      | none => .error ⟨.unknownOpcode, p0, pos - 1, some op, some (regField m)⟩
      | some (type, recipe) => finishModRM B p0 seg op m type width recipe (pos + 1) := by
  rw [decodeEntry, readByteAt, hm]; rfl

theorem finishModRM_refuses (hrecipe : recipe ≠ .base10) (h : recipe.refuses m = true) :
    finishModRM B p0 seg op m type width recipe (pos + 1) = .error ⟨.invalidOperandEncoding, p0, pos, some m, none⟩ :=
  finishModRM_bad (by simpa [Recipe.refuses, hrecipe] using h)

theorem finishModRM_not_refuses (h : recipe.refuses m = false) :
    EndsOnly (finishModRM B p0 seg op m type width recipe pos) :=
  finishModRM_endsOnly (by simp_all [Recipe.refuses])

/-- Of the recipes without a ModRM byte only that of AAM and AAD refuses a byte (30_encoding.md R112). -/
theorem Recipe.refuses_iff_base10 (hrecipe : recipe.hasModRM = false) :
    recipe.refuses m = true ↔ recipe = .base10 ∧ m ≠ 0x0A := by
  cases recipe <;> simp_all [Recipe.refuses, badFields, Recipe.hasModRM]

theorem buildPlain_base10 (hm : B.read pos = some m) (w : OpWidth) :
    buildPlain B p0 .base10 w seg op pos =
      if m = 0x0A then .ok ([], pos + 1) else .error ⟨.invalidOperandEncoding, p0, pos, some m, none⟩ := by
  rw [buildPlain, readByteAt, hm]; rfl

theorem decodeEntry_of_refusal {e : DecodeError}
    (hte : ∀ g width column reg, te = .group g width column → te.recipeAt reg ≠ some .base10)
    (h : te.refusal op (B.read (pos + 1)) = some e) :
    decodeEntry B p0 seg op (pos + 1) te = .error (errorOf p0 pos e) := by
  cases te with
  | unknown => cases h; rfl
  | segPrefix => cases h
  | direct type width recipe =>
    obtain ⟨m, hm, hrefusal⟩ := Option.bind_eq_some_iff.mp h
    obtain ⟨hrefuses, rfl⟩ := Recipe.refusal_eq_some.mp hrefusal
    cases hrecipe : recipe.hasModRM with
    | true =>
      have hne : recipe ≠ .base10 := by rintro rfl; cases hrecipe
      rw [decodeEntry_modrm hrecipe hm, finishModRM_refuses hne hrefuses]; rfl
    | false =>
      obtain ⟨rfl, hne⟩ := (Recipe.refuses_iff_base10 hrecipe).mp hrefuses
      rw [decodeEntry_plain hrecipe, buildPlain_base10 hm, if_neg hne]; rfl
  | group g width column =>
    obtain ⟨m, hm, hrefusal⟩ := Option.bind_eq_some_iff.mp h
    rw [decodeEntry_group hm]
    cases hslot : groupSlot g column (regField m) with
    | none => simp only [hslot] at hrefusal ⊢; cases hrefusal; rfl
    | some slot =>
      simp only [hslot, Recipe.refusal_eq_some] at hrefusal ⊢
      obtain ⟨hrefuses, rfl⟩ := hrefusal
      have hne : slot.2 ≠ .base10 := fun hs =>
        hte g width column (regField m) rfl (by simp [TableEntry.recipeAt, hslot, hs])
      rw [finishModRM_refuses hne hrefuses]; rfl

theorem decodeEntry_endsOnly (hte : ∀ g, te ≠ .segPrefix g) (h : te.refusal op (B.read (pos + 1)) = none) :
    EndsOnly (decodeEntry B p0 seg op (pos + 1) te) := by
  cases te with
  | unknown => cases h
  | segPrefix g => exact absurd rfl (hte g)
  | direct type width recipe =>
    have hrefuses {x : Byte × Nat} (hx : readByteAt B p0 (pos + 1) = .ok x) : recipe.refuses x.1 = false := by
      simpa [TableEntry.refusal, read_of_readByteAt hx] using h
    cases hrecipe : recipe.hasModRM with
    | true =>
      rw [decodeEntry, if_pos hrecipe]
      exact readByteAt_endsOnly.bind_of_ok fun x hx => finishModRM_not_refuses (hrefuses hx)
    | false =>
      rw [decodeEntry_plain hrecipe]
      refine EndsOnly.bind ?_ fun _ => endsOnly_ok _
      by_cases hbase : recipe = .base10
      · subst hbase
        refine readByteAt_endsOnly.bind_of_ok fun (b, pos') hx => ?_
        have hb : b = 0x0A := by simpa [Recipe.refuses, badFields] using hrefuses hx
        subst hb
        exact endsOnly_ok ([], pos')
      · exact buildPlain_endsOnly hbase _ _ _
  | group g width column =>
    rw [decodeEntry]
    refine readByteAt_endsOnly.bind_of_ok fun x hx => ?_
    simp only [TableEntry.refusal, read_of_readByteAt hx, Option.bind_some] at h
    cases hslot : groupSlot g column (regField x.1) with
    | none => simp [hslot] at h
    | some slot =>
      simp only [hslot, Recipe.refusal_eq_none] at h ⊢
      exact finishModRM_not_refuses h

end

/-! ### The table's rows -/

/-- Every row of this part of the table, which begins at opcode `k`, has the property `P` of its opcode and entry. -/
abbrev Rows (P : Byte → TableEntry → Prop) (k : Nat) (entries : List TableEntry) : Prop :=
  ∀ row ∈ entries.zipIdx k, P (BitVec.ofNat 8 row.2) row.1

theorem Rows.append {P : Byte → TableEntry → Prop} {k : Nat} {xs ys : List TableEntry} (hx : Rows P k xs)
    (hy : Rows P (k + xs.length) ys) : Rows P k (xs ++ ys) := by
  intro row hrow
  rw [List.zipIdx_append, List.mem_append] at hrow
  exact hrow.elim (hx row) (hy row)

/-- Opcodes 00 to 3F. -/
def quarter0 : List TableEntry := primaryRow0 ++ primaryRow1 ++ primaryRow2 ++ primaryRow3

/-- Opcodes 40 to 7F. -/
def quarter4 : List TableEntry := primaryRow4 ++ primaryRow5 ++ primaryRow6 ++ primaryRow7

/-- Opcodes 80 to BF. -/
def quarter8 : List TableEntry := primaryRow8 ++ primaryRow9 ++ primaryRowA ++ primaryRowB

/-- Opcodes C0 to FF. -/
def quarterC : List TableEntry := primaryRowC ++ primaryRowD ++ primaryRowE ++ primaryRowF

theorem primaryTable_eq : primaryTable = quarter0 ++ quarter4 ++ quarter8 ++ quarterC := by
  simp only [primaryTable, quarter0, quarter4, quarter8, quarterC, List.append_assoc]

/-- What holds of every row of the table, a quarter at a time, holds of every opcode. -/
theorem forall_primary {P : Byte → TableEntry → Prop} (h0 : Rows P 0x00 quarter0) (h4 : Rows P 0x40 quarter4)
    (h8 : Rows P 0x80 quarter8) (hC : Rows P 0xC0 quarterC) (op : Byte) : P op (primary op) := by
  have l0 : quarter0.length = 64 := rfl
  have l4 : quarter4.length = 64 := rfl
  have l8 : quarter8.length = 64 := rfl
  have lC : quarterC.length = 64 := rfl
  have hall : Rows P 0 primaryTable := by
    rw [primaryTable_eq]
    exact ((h0.append (l0 ▸ h4)).append
      (by rw [List.length_append, l0, l4]; exact h8)).append
      (by rw [List.length_append, List.length_append, l0, l4, l8]; exact hC)
  have hlength : primaryTable.length = 256 := by
    rw [primaryTable_eq, List.length_append, List.length_append, List.length_append, l0, l4, l8, lC]
  have hlt : op.toNat < primaryTable.length := op.isLt.trans_eq hlength.symm
  have hrow := hall (primaryTable[op.toNat], op.toNat)
    (List.mk_mem_zipIdx_iff_getElem?.mpr (List.getElem?_eq_getElem hlt))
  simpa [primary, List.getD_eq_getElem?_getD, hlt] using hrow

theorem primary_unknown_iff (op : Byte) : primary op = .unknown ↔ op ∈ unknownOpcodeBytes :=
  forall_primary (P := fun op te => te = .unknown ↔ op ∈ unknownOpcodeBytes)
    (by decide) (by decide) (by decide) (by decide) op

theorem primary_emptySlot_iff (op : Byte) (reg : BitVec 3) :
    (primary op).emptySlot reg = true ↔ unknownGroupSlot op reg :=
  forall_primary (P := fun op te => ∀ reg, te.emptySlot reg = true ↔ unknownGroupSlot op reg)
    (by unfold unknownGroupSlot; decide) (by unfold unknownGroupSlot; decide) (by unfold unknownGroupSlot; decide)
    (by unfold unknownGroupSlot; decide) op reg

theorem primary_gM_iff (op : Byte) (reg : BitVec 3) :
    (primary op).recipeAt reg = some .gM ↔ op ∈ [0x8D#8, 0xC4#8, 0xC5#8] :=
  forall_primary (P := fun op te => ∀ reg, te.recipeAt reg = some .gM ↔ op ∈ [0x8D#8, 0xC4#8, 0xC5#8])
    (by decide) (by decide) (by decide) (by decide) op reg

theorem primary_m_iff (op : Byte) (reg : BitVec 3) :
    (primary op).recipeAt reg = some .m ↔ op = 0xFF ∧ (reg = 3 ∨ reg = 5) :=
  forall_primary (P := fun op te => ∀ reg, te.recipeAt reg = some .m ↔ op = 0xFF ∧ (reg = 3 ∨ reg = 5))
    (by decide) (by decide) (by decide) (by decide) op reg

theorem primary_ewS_iff (op : Byte) (reg : BitVec 3) :
    (primary op).recipeAt reg = some .ewS ↔ op = 0x8C :=
  forall_primary (P := fun op te => ∀ reg, te.recipeAt reg = some .ewS ↔ op = 0x8C)
    (by decide) (by decide) (by decide) (by decide) op reg

theorem primary_sEw_iff (op : Byte) (reg : BitVec 3) :
    (primary op).recipeAt reg = some .sEw ↔ op = 0x8E :=
  forall_primary (P := fun op te => ∀ reg, te.recipeAt reg = some .sEw ↔ op = 0x8E)
    (by decide) (by decide) (by decide) (by decide) op reg

theorem primary_base10_iff (op : Byte) (reg : BitVec 3) :
    (primary op).recipeAt reg = some .base10 ↔ op ∈ [0xD4#8, 0xD5#8] :=
  forall_primary (P := fun op te => ∀ reg, te.recipeAt reg = some .base10 ↔ op ∈ [0xD4#8, 0xD5#8])
    (by decide) (by decide) (by decide) (by decide) op reg

/-! ### A step that refuses -/

theorem errorOf_injective {p0 pos : Nat} {d e : DecodeError} (h : errorOf p0 pos d = errorOf p0 pos e) : d = e := by
  cases d <;> cases e <;> simp_all [errorOf, endOfStreamError]

theorem primary_ne_segPrefix {op : Byte} (hop : op ∉ segPrefixBytes) (g : SegmentType) : primary op ≠ .segPrefix g := by
  intro hte
  have h := opcode_agrees (s := .ofCall .decodeNext .empty 0 "" .asInteger) op
  rw [hte] at h
  exact hop (mem_segPrefixBytes.mpr ⟨g, h.1⟩)

/-- The slots of the table's groups are not AAM's or AAD's recipe. -/
theorem primary_group_recipe {op : Byte} (g : GroupId) (width : DataWidth) (column : Recipe) (reg : BitVec 3)
    (hte : primary op = .group g width column) : (primary op).recipeAt reg ≠ some .base10 := by
  intro h
  have hop := (primary_base10_iff op reg).mp h
  simp only [List.mem_cons, List.not_mem_nil, or_false] at hop
  rcases hop with rfl | rfl <;> cases hte

section
variable {s : State} {op : Byte} {bs : List Byte} {e : DecodeError}

theorem decode_answers_of_fetch (hpos : s.pos ≤ s.buf.size) (hfetch : s.fetch = op :: bs)
    (hop : op ∉ segPrefixBytes) :
    Answers s.ready (decode s.ready.fetch)
      (decodeEntry s.buf s.ready.p0 s.ready.seg op (s.pos + 1) (primary op)) := by
  have h := decode_answers (s := s.ready) (op := op) (by simpa using hpos)
    (by simpa using read_of_fetch hpos hfetch) hop
  rwa [ready_buf, ready_pos] at h

/-- A step at bytes that the opcode's table entry refuses takes the entry's error. -/
theorem step_of_refusal (hrun : s.running) (hfetch : s.fetch = op :: bs)
    (h : (primary op).refusal op (s.buf.read (s.pos + 1)) = some e) :
    step s = .next (takeError (errorOf s.ready.p0 s.pos e) (s.ready.through (phasesBefore s.fetch e))) := by
  have hop : op ∉ segPrefixBytes := by
    intro hop
    obtain ⟨g, rfl⟩ := mem_segPrefixBytes.mp hop
    cases g <;> cases h
  have hanswers := decode_answers_of_fetch hrun.2.1 hfetch hop
  rw [decodeEntry_of_refusal primary_group_recipe h] at hanswers
  rw [step_of_running hrun]
  cases hdecode : decode s.ready.fetch with
  | ok r => rw [hdecode] at hanswers; obtain ⟨x, t, hx, -⟩ := hanswers; cases hx
  | error d =>
    rw [hdecode, Answers, ready_pos, Except.error.injEq] at hanswers
    cases errorOf_injective hanswers
    rw [decodeUnit_of_error hdecode, ready_pos, ready_fetch]

/-- A step that takes an error other than the end of the stream is at bytes that the opcode's table entry refuses. -/
theorem refusal_of_step {w : List Phase} (hrun : s.running) (hfetch : s.fetch = op :: bs)
    (hne : (errorOf s.ready.p0 s.pos e).kind ≠ .unexpectedEndOfStream)
    (h : step s = .next (takeError (errorOf s.ready.p0 s.pos e) (s.ready.through w))) :
    (primary op).refusal op (s.buf.read (s.pos + 1)) = some e := by
  rw [step_of_running hrun] at h
  by_cases hop : op ∈ segPrefixBytes
  · obtain ⟨g, rfl⟩ := mem_segPrefixBytes.mp hop
    obtain ⟨i, -, hdecode, hexec⟩ := decode_segPrefixByte g bs
    rw [decodeUnit_of_ok (by rw [ready_fetch, hfetch]; exact hdecode), hexec, readSegPrefix_ok] at h
    · cases congrArg State.phase (Host.Outcome.next.inj h)
    · simpa using read_eq_some_iff.mp ⟨_, read_of_fetch hrun.2.1 hfetch⟩
  have hanswers := decode_answers_of_fetch hrun.2.1 hfetch hop
  have hentry : decodeEntry s.buf s.ready.p0 s.ready.seg op (s.pos + 1) (primary op) =
      .error (errorOf s.ready.p0 s.pos e) := by
    cases hdecode : decode s.ready.fetch with
    | ok r =>
      rw [hdecode] at hanswers
      obtain ⟨x, t, -, ht, hc, -⟩ := hanswers
      rw [decodeUnit_of_ok hdecode, ht] at h
      cases hc.symm.trans (congrArg State.phase (Host.Outcome.next.inj h))
    | error d =>
      rw [decodeUnit_of_error hdecode] at h
      rw [hdecode] at hanswers
      have hresult := congrArg State.result (Host.Outcome.next.inj h)
      exact hanswers.trans (by simpa [takeError] using hresult)
  cases hrefusal : (primary op).refusal op (s.buf.read (s.pos + 1)) with
  | none => exact absurd (decodeEntry_endsOnly (primary_ne_segPrefix hop) hrefusal _ hentry) hne
  | some d =>
    have herror := (decodeEntry_of_refusal (p0 := s.ready.p0) (seg := s.ready.seg) primary_group_recipe
      hrefusal).symm.trans hentry
    rw [errorOf_injective (Except.error.inj herror)]

end

theorem read_second_of_fetch {s : State} {op m : Byte} {bs : List Byte} (hpos : s.pos ≤ s.buf.size)
    (h : s.fetch = op :: m :: bs) : s.buf.read (s.pos + 1) = some m := by
  have hholds := holds_fetch hpos
  rw [h] at hholds
  exact hholds.2.1

/-- Settles O17: a second byte is refused with its `reg` field where it names an empty slot of the opcode's group. -/
theorem unknownGroupSlots : Obligations.UnknownGroupSlots := by
  intro s op m bs hrun hfetch
  rw [← primary_emptySlot_iff, ← refusal_emptySlot_iff (op := op), ← read_second_of_fetch hrun.2.1 hfetch]
  exact ⟨refusal_of_step (e := .unknownOpcode op (some (regField m))) hrun hfetch nofun, step_of_refusal hrun hfetch⟩

/-- The opcode's recipe refuses the second byte exactly where the spec lists it (30_encoding.md R109, R112). -/
theorem refuses_iff_invalidSecondByte {op m : Byte} :
    (∃ recipe, (primary op).recipeAt (regField m) = some recipe ∧ recipe.refuses m = true) ↔
      invalidSecondByte op m := by
  have gM := primary_gM_iff op (regField m)
  have mem := primary_m_iff op (regField m)
  have ewS := primary_ewS_iff op (regField m)
  have sEw := primary_sEw_iff op (regField m)
  have base10 := primary_base10_iff op (regField m)
  constructor
  · rintro ⟨recipe, hat, hrefuses⟩
    rcases Recipe.refuses_iff.mp hrefuses with ⟨rfl, h⟩ | ⟨rfl, h⟩ | ⟨rfl, h⟩ | ⟨rfl, h | h⟩ | ⟨rfl, h⟩
    · exact .inl ⟨gM.mp hat, h⟩
    · exact .inr (.inl ⟨(mem.mp hat).1, (mem.mp hat).2, h⟩)
    · exact .inr (.inr (.inl ⟨by simp [ewS.mp hat], h⟩))
    · exact .inr (.inr (.inl ⟨by simp [sEw.mp hat], h⟩))
    · exact .inr (.inr (.inr (.inl ⟨sEw.mp hat, h⟩)))
    · exact .inr (.inr (.inr (.inr ⟨base10.mp hat, h⟩)))
  · rintro (⟨hop, h⟩ | ⟨hop, hreg, h⟩ | ⟨hop, h⟩ | ⟨hop, h⟩ | ⟨hop, h⟩)
    · exact ⟨.gM, gM.mpr hop, by simp [Recipe.refuses_iff, h]⟩
    · exact ⟨.m, mem.mpr ⟨hop, hreg⟩, by simp [Recipe.refuses_iff, h]⟩
    · simp only [List.mem_cons, List.not_mem_nil, or_false] at hop
      rcases hop with hop | hop
      · exact ⟨.ewS, ewS.mpr hop, by simp [Recipe.refuses_iff, h]⟩
      · exact ⟨.sEw, sEw.mpr hop, by simp [Recipe.refuses_iff, h]⟩
    · exact ⟨.sEw, sEw.mpr hop, by simp [Recipe.refuses_iff, h]⟩
    · exact ⟨.base10, base10.mpr hop, Recipe.refuses_iff.mpr (by simpa using h)⟩

/-- The phase in which a listed second byte is refused: that of its ModRM byte, or of the immediate of AAM and AAD. -/
theorem hasModRM_of_invalidSecondByte {op m : Byte} (h : invalidSecondByte op m) :
    (primary op).hasModRM = true ↔ ¬ (op = 0xD4 ∨ op = 0xD5) := by
  have listed : op ∈ [0x8D#8, 0xC4, 0xC5, 0xFF, 0x8C, 0x8E, 0xD4, 0xD5] := by
    unfold invalidSecondByte at h
    simp only [List.mem_cons, List.not_mem_nil, or_false] at h ⊢
    tauto
  fin_cases listed <;> decide

/-- Settles O18: a second byte is refused where the recipe that the opcode's table entry has for it refuses it. -/
theorem invalidSecondBytes : Obligations.InvalidSecondBytes := by
  intro s op m bs hrun hfetch
  have hlisted : (primary op).refusal op (s.buf.read (s.pos + 1)) = some (.invalidOperand m) ↔
      invalidSecondByte op m := by
    rw [read_second_of_fetch hrun.2.1 hfetch, refusal_invalidOperand_iff, refuses_iff_invalidSecondByte]
  refine ⟨fun h => hlisted.mp (refusal_of_step (e := .invalidOperand m) hrun hfetch nofun h), fun h => ?_⟩
  have hphases : phasesBefore s.fetch (.invalidOperand m) =
      [.opcodeRead, if op = 0xD4 ∨ op = 0xD5 then .immediateRead else .modrmRead] := by
    simp only [hfetch, phasesBefore, hasModRM_of_invalidSecondByte h, ite_not]
  exact hphases ▸ step_of_refusal hrun hfetch (hlisted.mpr h)

end Sys2Proof.Machine

namespace Sys2Proof

open Machine

/-- Settles O16: an opcode byte is refused alone where its table entry is `unknown`. -/
theorem unknownOpcodeBytes : Obligations.UnknownOpcodeBytes := by
  intro s op bs hrun hfetch
  rw [← primary_unknown_iff, ← refusal_unknownOpcode_iff (op := op) (second := s.buf.read (s.pos + 1))]
  exact ⟨refusal_of_step (e := .unknownOpcode op none) hrun hfetch nofun, step_of_refusal hrun hfetch⟩

end Sys2Proof

/-! What the data-transfer instructions complete with. -/

namespace Sys2Proof.Machine

theorem size_dataImm (d : Data) : (dataImm d).size = dataLength d := by
  cases d <;> rfl

/-- A form with an r/m operand and a data immediate takes the bytes of both. -/
theorem decodeRMImm_dataImm_completes {s : State} (op : Byte) (reg : BitVec 3) (e : RM) (d : Data)
    (type : InstructionType) (width : DataWidth) (operands : List Operand)
    (h : s.pos + (rmLength e + dataLength d) ≤ s.buf.size) :
    completesWith s (rmLength e + dataLength d) op type width operands
      (decodeRMImm op reg e (dataImm d) type width operands s) := by
  rw [← size_dataImm] at h ⊢
  exact decodeRMImm_completes op reg e (dataImm d) type width operands h

/-- Settles O38: each form is a recipe of an r/m operand, of an immediate, or of both; A0 to A3 read their address as an
immediate word. -/
theorem movFormsComplete : Obligations.MovFormsComplete :=
  fun _ =>
    ⟨fun _ e g _ hroom => ⟨decodeRM_completes _ g e _ _ _ hroom, decodeRM_completes _ g e _ _ _ hroom⟩,
      fun e d _ hroom => decodeRMImm_dataImm_completes _ 0 e d _ _ _ hroom,
      fun _ b hroom => decodeImm_completes _ (.byte b .none) _ _ _ hroom,
      fun _ v hroom => decodeImm_completes _ (.word v .none) _ _ _ hroom,
      fun _ a hroom =>
        ⟨decodeImm_completes _ (.word a .none) _ _ _ hroom, decodeImm_completes _ (.word a .none) _ _ _ hroom⟩,
      fun e r _ hroom =>
        ⟨decodeRM_completes _ r.reg e _ _ _ hroom, fun _ => decodeRM_completes _ r.reg e _ _ _ hroom⟩⟩

/-- Settles O39: a register form is a recipe of the opcode byte alone, the others are recipes of an r/m operand. -/
theorem stackAndExchangeFormsComplete : Obligations.StackAndExchangeFormsComplete :=
  fun _ =>
    ⟨fun _ hroom => ⟨decodeShort_completes _ _ _ _ hroom, decodeShort_completes _ _ _ _ hroom,
        fun _ => decodeShort_completes _ _ _ _ hroom⟩,
      fun _ hroom => ⟨decodeShort_completes _ _ _ _ hroom, fun _ => decodeShort_completes _ _ _ _ hroom⟩,
      fun e _ hroom => ⟨decodeRM_completes _ 6 e _ _ _ hroom, decodeRM_completes _ 0 e _ _ _ hroom⟩,
      fun _ e g _ hroom => decodeRM_completes _ g e _ _ _ hroom⟩

end Sys2Proof.Machine

/-! What the arithmetic and logic instructions with two operands complete with, and INC and DEC. -/

namespace Sys2Proof.Machine

/-! ### The lengths of the forms -/

theorem length_opcode_rm (op : Byte) (reg : BitVec 3) (e : RM) : (op :: e.bytes reg).length = rmLength e := by
  cases e with
  | reg r => rfl
  | mem m => cases m <;> rfl

theorem length_opcode_rm_append (op : Byte) (reg : BitVec 3) (e : RM) (bytes : List Byte) :
    (op :: (e.bytes reg ++ bytes)).length = rmLength e + bytes.length := by
  rw [← List.cons_append, List.length_append, length_opcode_rm]

/-! ### The eight ALU instructions -/

/-- The bytes and the meaning of a row of the table are those of its group 1 slot. -/
theorem encode_exec_aluTable : ∀ row ∈ aluTable, ∃ slot, (∀ f, encode (row.1 f) = f.encode row.2.1 slot) ∧
    ∀ f s, exec (row.1 f) s = decodeAlu row.2.1 slot row.2.2 f s := by
  intro row hrow
  fin_cases hrow <;> exact ⟨_, fun _ => rfl, fun _ _ => rfl⟩

theorem opcode_accI_byte (k b : Byte) : (AluForm.accI (.byte b)).opcode k = k + 4 :=
  BitVec.add_zero (k + 4)

theorem opcode_accI_word (k : Byte) (v : Word) : (AluForm.accI (.word v)).opcode k = k + 5 :=
  BitVec.add_assoc k 4 1

/-- Settles O34: `E,G` and `G,E` are recipes of an r/m operand, `ACC,I` of an immediate, `E,I` and `E,Is` of both. -/
theorem aluFormsComplete : Obligations.AluFormsComplete := by
  intro row hrow s
  obtain ⟨slot, hencode, hexec⟩ := encode_exec_aluTable row hrow
  have room {f : AluForm} {n : Nat} (h : s.hasRoom (row.1 f)) (hn : (f.encode row.2.1 slot).length = n) :
      s.pos + n ≤ s.buf.size := by
    rwa [State.hasRoom, hencode, hn] at h
  simp only [hexec]
  refine ⟨fun w e g _ h => ?eg, fun w g e _ h => ?ge, fun b h => ?accByte, fun v h => ?accWord, fun e b _ h => ?eByte,
    fun e v _ h => ?eWord, fun e b _ h => ?e82, fun e b _ h => ?eSext⟩
  case eg | ge => exact decodeRM_completes _ g e _ _ _ (room h (length_opcode_rm _ g e))
  case accByte =>
    rw [← opcode_accI_byte row.2.1 b]
    exact decodeImm_completes _ (.byte b .none) _ _ _ (room h rfl)
  case accWord =>
    rw [← opcode_accI_word row.2.1 v]
    exact decodeImm_completes _ (.word v .none) _ _ _ (room h rfl)
  case eByte | e82 | eSext =>
    exact decodeRMImm_completes _ slot e (.byte b .none) _ _ _ (room h (length_opcode_rm_append _ slot e [b]))
  case eWord =>
    exact decodeRMImm_completes _ slot e (.word v .none) _ _ _ (room h (length_opcode_rm_append _ slot e (wordBytes v)))

/-! ### INC and DEC -/

/-- The register opcodes of INC are `01000` and the register (30_encoding.md R93). -/
theorem incOpcode_reg16 : ∀ r : BitVec 3, (IncDecForm.reg16 r).opcode 0x40 = 0b01000#5 ++ r := by decide

theorem decOpcode_reg16 : ∀ r : BitVec 3, (IncDecForm.reg16 r).opcode 0x48 = 0b01001#5 ++ r := by decide

/-- Settles O35: a register form is a recipe of the opcode byte alone, an r/m form one of the opcode and its operand. -/
theorem incDecFormsComplete : Obligations.IncDecFormsComplete := by
  refine fun s => ⟨fun r hroom => ⟨?_, ?_⟩, fun w e _ hroom =>
    ⟨decodeRM_completes _ 0 e _ _ _ hroom, decodeRM_completes _ 1 e _ _ _ hroom⟩⟩
  · exact incOpcode_reg16 r ▸ decodeShort_completes _ _ _ _ hroom
  · exact decOpcode_reg16 r ▸ decodeShort_completes _ _ _ _ hroom

end Sys2Proof.Machine

/-! What TEST completes with. -/

namespace Sys2Proof.Machine

/-- A form whose only other bytes are a data immediate takes the opcode byte and those of the immediate. -/
theorem decodeImm_dataImm_completes {s : State} (op : Byte) (d : Data) (type : InstructionType) (width : DataWidth)
    (operands : List Operand) (h : s.pos + (1 + dataLength d) ≤ s.buf.size) :
    completesWith s (1 + dataLength d) op type width operands (decodeImm op (dataImm d) type width operands s) := by
  rw [← size_dataImm] at h ⊢
  exact decodeImm_completes op (dataImm d) type width operands h

/-- Settles O37: `E,G` is a recipe of an r/m operand, `ACC,I` of an immediate, `E,I` of both, in slot 0 of group 3. -/
theorem testFormsComplete : Obligations.TestFormsComplete :=
  fun _ =>
    ⟨fun _ e g _ hroom => decodeRM_completes _ g e _ _ _ hroom,
      fun d hroom => decodeImm_dataImm_completes _ d _ _ _ hroom,
      fun e d _ hroom => decodeRMImm_dataImm_completes _ 0 e d _ _ _ hroom⟩

end Sys2Proof.Machine

/-! The target of a relative jump or call, from what the instruction completes with. -/

namespace Sys2Proof.Machine

theorem relativeTarget_of_operands {x : Instruction} {i : Imm} (hx : x.operands = [.immediate i])
    (hi : i.flag = .relativeJumpDisplacement) (p0 : Nat) : relativeTarget p0 x = some (nextOffset p0 x + i.sint) := by
  simp [relativeTarget, hx, hi]

theorem relativeTarget16_of_operands {x : Instruction} {i : Imm} (hx : x.operands = [.immediate i])
    (hi : i.flag = .relativeJumpDisplacement) (p0 : Nat) :
    relativeTarget16 p0 x = some (BitVec.ofNat 16 (nextOffset p0 x) + BitVec.ofInt 16 i.sint) := by
  simp [relativeTarget16, relativeTarget_of_operands hx hi, BitVec.ofInt_add]

/-- R245, R40: the length counts from `p0` to the cursor, so the address that a lone displacement is added to is the
cursor. -/
theorem completesWith.targets {s : State} {n : Nat} {op : Byte} {type : InstructionType} {width : DataWidth} {i : Imm}
    {r : Result} (h : completesWith s n op type width [.immediate i] r) (hi : i.flag = .relativeJumpDisplacement)
    (hstart : s.p0 ≤ s.pos) : targets s i.sint (BitVec.ofInt 16 i.sint) r := by
  obtain ⟨t, hr, -, hpos, -, -, -, hresult⟩ := h
  have hnext : nextOffset s.p0 ⟨op, s.pos + n - s.p0, type, width, [.immediate i]⟩ = t.pos := by
    simp only [nextOffset]
    omega
  refine ⟨t, _, hr, hresult, hnext, ?_, ?_⟩
  · rw [relativeTarget_of_operands rfl hi, hnext]
  · rw [relativeTarget16_of_operands rfl hi, hnext]

theorem targets_of_completesWith_byte {s : State} {n : Nat} {op : Byte} {type : InstructionType} {width : DataWidth}
    {d : Byte} {r : Result} (hstart : s.p0 ≤ s.pos)
    (h : completesWith s n op type width [.immediate (.byte d .relativeJumpDisplacement)] r) :
    targets s d.toInt (d.signExtend 16) r :=
  h.targets rfl hstart

theorem targets_of_completesWith_word {s : State} {n : Nat} {op : Byte} {type : InstructionType} {width : DataWidth}
    {d : Word} {r : Result} (hstart : s.p0 ≤ s.pos)
    (h : completesWith s n op type width [.immediate (.word d .relativeJumpDisplacement)] r) :
    targets s d.toInt d r := by
  have htargets : targets s d.toInt (BitVec.ofInt 16 d.toInt) r := h.targets rfl hstart
  rwa [BitVec.ofInt_toInt] at htargets

/-- Settles O57: each of these instructions completes with a lone displacement, of a byte (O42, O43) or a word (O43). -/
theorem relativeTargets : Obligations.RelativeTargets := by
  intro s hstart
  obtain ⟨hrel16, hrel8, -⟩ := nearTransfersComplete s
  refine ⟨fun d hroom => ⟨fun row hrow => ?_, ?_⟩, fun d hroom => ?_⟩
  · exact targets_of_completesWith_byte hstart (shortJumpsComplete row hrow s d hroom)
  · exact targets_of_completesWith_byte hstart (hrel8 d hroom)
  · obtain ⟨hcall, hjmp⟩ := hrel16 d hroom
    exact ⟨targets_of_completesWith_word hstart hjmp, targets_of_completesWith_word hstart hcall⟩

end Sys2Proof.Machine

/-! The functions of the flag unit: parity, carry and borrow, signed overflow, and the carry and borrow of bit 3. -/

namespace Sys2Proof.Machine

/-! ### Parity -/

/-- A predicate that differs at one member of a list without duplicates counts one more or one less. -/
theorem countP_parity_flip {α : Type} [DecidableEq α] {p q : α → Bool} {l : List α} {k : α} (hl : l.Nodup)
    (hk : k ∈ l) (hflip : q k = !p k) (hne : ∀ j, j ≠ k → q j = p j) :
    (l.countP q % 2 == 0) = !(l.countP p % 2 == 0) := by
  have hperm := List.perm_cons_erase hk
  have hrest : (l.erase k).countP q = (l.erase k).countP p :=
    List.countP_congr fun j hj => by rw [hne j (hl.mem_erase_iff.mp hj).1]
  rw [hperm.countP_eq, hperm.countP_eq, List.countP_cons, List.countP_cons, hrest, hflip]
  cases p k <;> grind

theorem isParity8_flip (v : Byte) {k : Nat} (hk : k < 8) :
    isParity8 (v ^^^ BitVec.twoPow 8 k) = !isParity8 v := by
  refine countP_parity_flip List.nodup_range (List.mem_range.mpr hk) ?_ fun j hj => ?_
  · simp [hk]
  · simp [BitVec.getLsbD_twoPow, Ne.symm hj]

/-- Settles O47: the count of 1 bits changes by one with every flipped bit, and a word's low byte is its second half. -/
theorem parityOfLowByte : Obligations.ParityOfLowByte :=
  ⟨by decide, fun v _ hk => isParity8_flip v hk, fun hi lo => congrArg isParity8 (lowByte_wordOfBytes lo hi)⟩

/-! ### Carry and borrow -/

theorem addResult_toNat (w : OpWidth) (a b : BitVec w.bits) (c : Bool) :
    (addResult w a b c).toNat = (a.toNat + b.toNat + c.toNat) % 2 ^ w.bits := by
  simp [addResult, BitVec.toNat_add]

theorem carryAdd_iff {w : OpWidth} {a b : BitVec w.bits} {c : Bool} :
    carryAdd w a b c = true ↔ 2 ^ w.bits ≤ a.toNat + b.toNat + c.toNat :=
  decide_eq_true_iff

theorem carrySub_iff {w : OpWidth} {a b : BitVec w.bits} {c : Bool} :
    carrySub w a b c = true ↔ a.toNat < b.toNat + c.toNat :=
  decide_eq_true_iff

/-- The whole sum is below `2^(n+1)`, so one carry makes up for the modulus (R271, R277). -/
theorem addResult_carryAdd (w : OpWidth) (a b : BitVec w.bits) (c : Bool) :
    (addResult w a b c).toNat + (if carryAdd w a b c then 2 ^ w.bits else 0) = a.toNat + b.toNat + c.toNat := by
  have ha := a.isLt
  have hb := b.isLt
  have hc := c.toNat_le
  rw [addResult_toNat]
  by_cases hcarry : 2 ^ w.bits ≤ a.toNat + b.toNat + c.toNat
  · rw [if_pos (carryAdd_iff.mpr hcarry), Nat.mod_eq_sub_mod hcarry, Nat.mod_eq_of_lt (by omega)]
    omega
  · rw [if_neg (mt carryAdd_iff.mp hcarry), Nat.mod_eq_of_lt (by omega), Nat.add_zero]

/-- Adding back what was subtracted gives the minuend, so what R274, R276 and R278 say of a difference follows from what
R271, R273 and R275 say of that sum. -/
theorem addResult_subResult (w : OpWidth) (a b : BitVec w.bits) (c : Bool) :
    addResult w (subResult w a b c) b c = a := by
  simp only [addResult, subResult]
  ring

/-- The difference borrows exactly where adding back carries. -/
theorem carrySub_eq_carryAdd (w : OpWidth) (a b : BitVec w.bits) (c : Bool) :
    carrySub w a b c = carryAdd w (subResult w a b c) b c := by
  have hsum := addResult_carryAdd w (subResult w a b c) b c
  have hr := (subResult w a b c).isLt
  rw [addResult_subResult] at hsum
  rw [Bool.eq_iff_iff, carrySub_iff]
  split at hsum
  case isTrue hcarry =>
    rw [iff_true_right hcarry]
    omega
  case isFalse hcarry =>
    rw [iff_false_right hcarry]
    omega

theorem subResult_carrySub (w : OpWidth) (a b : BitVec w.bits) (c : Bool) :
    (subResult w a b c).toNat + b.toNat + c.toNat = a.toNat + (if carrySub w a b c then 2 ^ w.bits else 0) := by
  rw [carrySub_eq_carryAdd, ← addResult_carryAdd, addResult_subResult]

/-! ### Signed overflow -/

theorem addResult_eq_ofInt (w : OpWidth) (a b : BitVec w.bits) (c : Bool) :
    addResult w a b c = BitVec.ofInt w.bits (a.toInt + b.toInt + c.toNat) := by
  simp [addResult, BitVec.ofInt_add]

theorem subResult_eq_ofInt (w : OpWidth) (a b : BitVec w.bits) (c : Bool) :
    subResult w a b c = BitVec.ofInt w.bits (a.toInt - b.toInt - c.toNat) := by
  simp [subResult, Int.sub_eq_add_neg, BitVec.ofInt_add, BitVec.ofInt_neg, BitVec.sub_eq_add_neg]

theorem outOfSignedRange_iff {w : OpWidth} {x : Int} :
    outOfSignedRange w x = true ↔ x < -(2 : Int) ^ (w.bits - 1) ∨ (2 : Int) ^ (w.bits - 1) - 1 < x := by
  simp [outOfSignedRange]

/-- What `n` bits hold of an integer: the value in range that differs from it by a multiple of `2^n`. -/
theorem toInt_ofInt_bounds (w : OpWidth) (x : Int) :
    -(2 : Int) ^ (w.bits - 1) ≤ (BitVec.ofInt w.bits x).toInt ∧
      (BitVec.ofInt w.bits x).toInt < (2 : Int) ^ (w.bits - 1) ∧
      (2 : Int) ^ w.bits ∣ (BitVec.ofInt w.bits x).toInt - x := by
  refine ⟨BitVec.le_toInt _, BitVec.toInt_lt, ?_⟩
  rw [BitVec.toInt_ofInt]
  exact_mod_cast Int.dvd_bmod_sub_self

theorem outOfSignedRange_eq_false_iff (w : OpWidth) (x : Int) :
    outOfSignedRange w x = false ↔ (BitVec.ofInt w.bits x).toInt = x := by
  have h := toInt_ofInt_bounds w x
  rw [← Bool.not_eq_true, outOfSignedRange_iff]
  cases w <;> norm_num at h ⊢ <;> omega

theorem signBit_eq_toInt (w : OpWidth) (x : BitVec w.bits) : x.getLsbD (w.bits - 1) = decide (x.toInt < 0) := by
  rw [← BitVec.msb_eq_getLsbD_last, BitVec.msb_eq_toInt]

/-- R273: both operands have the sign that the result lacks. -/
theorem overflowAdd_eq_signBits (w : OpWidth) (a b : BitVec w.bits) (c : Bool) :
    overflowAdd w a b c =
      ((a ^^^ addResult w a b c) &&& (b ^^^ addResult w a b c)).getLsbD (w.bits - 1) := by
  have hr := toInt_ofInt_bounds w (a.toInt + b.toInt + c.toNat)
  have ha := a.le_toInt
  have ha' := a.toInt_lt
  have hb := b.le_toInt
  have hb' := b.toInt_lt
  have hc := c.toNat_le
  rw [← addResult_eq_ofInt] at hr
  rw [BitVec.getLsbD_and, BitVec.getLsbD_xor, BitVec.getLsbD_xor, Bool.eq_iff_iff, overflowAdd, outOfSignedRange_iff]
  simp only [signBit_eq_toInt, Bool.and_eq_true, bne_iff_ne, ne_eq, decide_eq_decide]
  cases w <;> norm_num at ha ha' hb hb' hr ⊢ <;> omega

theorem overflowAdd_eq_false_iff (w : OpWidth) (a b : BitVec w.bits) (c : Bool) :
    overflowAdd w a b c = false ↔ (addResult w a b c).toInt = a.toInt + b.toInt + c.toNat := by
  rw [addResult_eq_ofInt, overflowAdd, outOfSignedRange_eq_false_iff]

theorem overflowSub_eq_false_iff (w : OpWidth) (a b : BitVec w.bits) (c : Bool) :
    overflowSub w a b c = false ↔ (subResult w a b c).toInt = a.toInt - b.toInt - c.toNat := by
  rw [subResult_eq_ofInt, overflowSub, outOfSignedRange_eq_false_iff]

/-- The difference is out of range exactly where adding back is. -/
theorem overflowSub_eq_overflowAdd (w : OpWidth) (a b : BitVec w.bits) (c : Bool) :
    overflowSub w a b c = overflowAdd w (subResult w a b c) b c := by
  rw [Bool.eq_iff_iff, ← not_iff_not, Bool.not_eq_true, Bool.not_eq_true, overflowSub_eq_false_iff,
    overflowAdd_eq_false_iff, addResult_subResult]
  omega

/-- R274, from the closed form of adding back. -/
theorem overflowSub_eq_signBits (w : OpWidth) (a b : BitVec w.bits) (c : Bool) :
    overflowSub w a b c = ((a ^^^ b) &&& (a ^^^ subResult w a b c)).getLsbD (w.bits - 1) := by
  rw [overflowSub_eq_overflowAdd, overflowAdd_eq_signBits, addResult_subResult, BitVec.and_comm, BitVec.xor_comm b,
    BitVec.xor_comm _ a]

/-- Settles O49: the sum is in range exactly when the result holds it, and overflow shows in the sign bits. -/
theorem overflowAddClosedForm : Obligations.OverflowAddClosedForm :=
  fun w a b c => ⟨outOfSignedRange_iff, overflowAdd_eq_signBits w a b c, overflowAdd_eq_false_iff w a b c⟩

/-- Settles O50: as O49, with the closed form of the sum that adds back. -/
theorem overflowSubClosedForm : Obligations.OverflowSubClosedForm :=
  fun w a b c => ⟨outOfSignedRange_iff, overflowSub_eq_signBits w a b c, overflowSub_eq_false_iff w a b c⟩

/-! ### The carry and borrow of bit 3 -/

theorem lowNibble_eq_mod {n : Nat} (x : BitVec n) : lowNibble x = x.toNat % 2 ^ 4 := by
  simp [lowNibble]

/-- `AuxAdd` is the carry into bit 4 of the adder. -/
theorem auxAdd_eq_carry {n : Nat} (a b : BitVec n) (c : Bool) : auxAdd a b c = BitVec.carry 4 a b c := by
  simp only [auxAdd, BitVec.carry, lowNibble_eq_mod, ge_iff_le]

/-- R275: bit 4 of a sum is that of both operands and the carry into it. -/
theorem auxAdd_eq_bit4 (w : OpWidth) (a b : BitVec w.bits) (c : Bool) :
    auxAdd a b c = (a ^^^ b ^^^ addResult w a b c).getLsbD 4 := by
  have hc : BitVec.ofNat w.bits c.toNat = (BitVec.ofBool c).setWidth w.bits := by
    cases w <;> cases c <;> rfl
  have hbit := BitVec.getLsbD_add_add_bool (i := 4) (by cases w <;> decide) a b c
  rw [BitVec.getLsbD_xor, BitVec.getLsbD_xor, addResult, hc, hbit, auxAdd_eq_carry]
  grind

theorem lowNibble_addResult (w : OpWidth) (a b : BitVec w.bits) (c : Bool) :
    lowNibble (addResult w a b c) = (lowNibble a + lowNibble b + c.toNat) % 16 := by
  have hdvd : 2 ^ 4 ∣ 2 ^ w.bits := by cases w <;> decide
  simp only [lowNibble_eq_mod, addResult_toNat]
  rw [Nat.mod_mod_of_dvd _ hdvd]
  omega

/-- The low nibble borrows exactly where adding back carries. -/
theorem auxSub_eq_auxAdd (w : OpWidth) (a b : BitVec w.bits) (c : Bool) :
    auxSub a b c = auxAdd (subResult w a b c) b c := by
  have hsum := lowNibble_addResult w (subResult w a b c) b c
  have hb : lowNibble b < 16 := BitVec.isLt _
  have hr : lowNibble (subResult w a b c) < 16 := BitVec.isLt _
  have hc := c.toNat_le
  rw [addResult_subResult] at hsum
  simp only [auxSub, auxAdd, decide_eq_decide]
  omega

/-- R276, from the closed form of adding back. -/
theorem auxSub_eq_bit4 (w : OpWidth) (a b : BitVec w.bits) (c : Bool) :
    auxSub a b c = (a ^^^ b ^^^ subResult w a b c).getLsbD 4 := by
  rw [auxSub_eq_auxAdd w, auxAdd_eq_bit4, addResult_subResult]
  congr 1
  ac_rfl

/-- Settles O51: the carry into bit 4 of the adder, for a difference that of the sum that adds back. -/
theorem auxiliaryCarryClosedForms : Obligations.AuxiliaryCarryClosedForms :=
  fun w a b c => ⟨decide_eq_true_iff, auxAdd_eq_bit4 w a b c, decide_eq_true_iff, auxSub_eq_bit4 w a b c⟩

end Sys2Proof.Machine

/-! What the effects of a class leave in FLAGS (46_flag_unit.md R282). -/

namespace Sys2Proof.Machine

theorem FlagName.bit_inj {f g : FlagName} : f.bit = g.bit ↔ f = g := by
  cases f <;> cases g <;> decide

theorem FlagName.bit_lt (f : FlagName) : f.bit < 16 := by cases f <;> decide

theorem getLsbD_writeFlag (f : FlagName) (b : Bool) (flags : Word) (k : Nat) :
    (writeFlag f b flags).getLsbD k = if k = f.bit then b else flags.getLsbD k := by
  have hf := f.bit_lt
  by_cases hk : k = f.bit
  · cases b <;> simp [writeFlag, hk, hf]
  · have hlt : flags.getLsbD k = true → k < 16 := BitVec.lt_of_getLsbD
    cases b
    · simpa [writeFlag, BitVec.getLsbD_twoPow, hk, Ne.symm hk] using hlt
    · simp [writeFlag, BitVec.getLsbD_twoPow, hk, Ne.symm hk]

/-- What a flag that was `old` reads after an effect. -/
def FlagEffect.value (free old : Bool) : FlagEffect → Bool
  | .set b => b
  | .kept => old
  | .undefined => free

@[simp] theorem FlagEffect.value_set (free old b : Bool) : (FlagEffect.set b).value free old = b := rfl

@[simp] theorem FlagEffect.value_kept (free old : Bool) : FlagEffect.kept.value free old = old := rfl

@[simp] theorem FlagEffect.value_undefined (free old : Bool) : FlagEffect.undefined.value free old = free := rfl

/-- An effect on one flag reaches the bit of that flag only. -/
theorem FlagEffect.getLsbD_apply (free : Bool) (f : FlagName) (e : FlagEffect) (flags : Word) (k : Nat) :
    (e.apply free f flags).getLsbD k = if k = f.bit then e.value free (readFlag f flags) else flags.getLsbD k := by
  cases e with
  | set b => exact getLsbD_writeFlag f b flags k
  | undefined => exact getLsbD_writeFlag f free flags k
  | kept =>
    show flags.getLsbD k = if k = f.bit then flags.getLsbD f.bit else flags.getLsbD k
    split <;> simp_all

theorem FlagEffect.readFlag_apply (free : Bool) (f g : FlagName) (e : FlagEffect) (flags : Word) :
    readFlag g (e.apply free f flags) = if g = f then e.value free (readFlag f flags) else readFlag g flags := by
  simp only [readFlag, FlagEffect.getLsbD_apply, FlagName.bit_inj]

/-- The effect an outcome has on a flag; TF, IF and DF are kept. -/
def FlagOutcome.effect (o : FlagOutcome) : FlagName → FlagEffect
  | .CF => o.cf
  | .PF => o.pf
  | .AF => o.af
  | .ZF => o.zf
  | .SF => o.sf
  | .OF => o.of
  | .TF => .kept
  | .IF => .kept
  | .DF => .kept

/-- Each flag reads what the effect on it gives, whatever the other effects are. -/
@[simp] theorem FlagOutcome.readFlag_apply (free : Bool) (o : FlagOutcome) (f : FlagName) (flags : Word) :
    readFlag f (o.apply free flags) = (o.effect f).value free (readFlag f flags) := by
  cases f <;> simp [FlagOutcome.apply, FlagOutcome.effect, FlagEffect.readFlag_apply]

theorem FlagOutcome.getLsbD_apply_of_no_flag (free : Bool) (o : FlagOutcome) (flags : Word) {k : Nat}
    (hk : k ∉ [0, 2, 4, 6, 7, 11]) : (o.apply free flags).getLsbD k = flags.getLsbD k := by
  simp only [List.mem_cons, List.not_mem_nil, or_false, not_or] at hk
  simp [FlagOutcome.apply, FlagEffect.getLsbD_apply, FlagName.bit, hk]

/-- Settles O54: a class's effects reach the bits of the six flags, each its own. -/
theorem flagsWordFrame : Obligations.FlagsWordFrame := by
  refine ⟨rfl, fun free o flags k hk => o.getLsbD_apply_of_no_flag free flags hk, fun free o flags b p hp hset => ?_⟩
  have heffect : o.effect p.1 = p.2 := by
    simp only [List.mem_cons, List.not_mem_nil, or_false] at hp
    rcases hp with rfl | rfl | rfl | rfl | rfl | rfl <;> rfl
  rw [FlagOutcome.readFlag_apply, heffect, hset, FlagEffect.value_set]

end Sys2Proof.Machine

/-! The classes: whose they are, and their results and flags. -/

namespace Sys2Proof.Machine

/-! ### The logic class (R281) -/

theorem classResult_logic {t : InstructionType} {o : LogicOp} (h : flagClass t = .logic o) (w : OpWidth)
    (a b : BitVec w.bits) (cf : Bool) : classResult t w a b cf = some (logicClass w o a b) := by
  simp only [classResult, h]

/-- Settles O53: each flag of the packed word reads what the class's effect on it gives. -/
theorem logicClassFlags : Obligations.LogicClassFlags := by
  refine ⟨rfl, rfl, fun t o w a b cf h => classResult_logic h w a b cf, fun w o a b free flags => ⟨fun k => ?_, ?_⟩⟩
  · cases o
    case and => exact BitVec.getLsbD_and
    case or => exact BitVec.getLsbD_or
    case xor => exact BitVec.getLsbD_xor
  · simp only [FlagOutcome.readFlag_apply]
    exact ⟨rfl, rfl, rfl, rfl, rfl, rfl⟩

/-! ### The neg, inc and dec classes (R279, R280) -/

theorem addResult_one (w : OpWidth) (x : BitVec w.bits) : addResult w x 1 false = x + 1 := by
  simp [addResult]

theorem subResult_one (w : OpWidth) (x : BitVec w.bits) : subResult w x 1 false = x - 1 := by
  simp [subResult]

theorem subResult_zero_left (w : OpWidth) (x : BitVec w.bits) : subResult w 0 x false = -x := by
  simp [subResult]

/-- Only 0 can be subtracted from 0 without a borrow. -/
theorem carrySub_zero_left (w : OpWidth) (x : BitVec w.bits) : carrySub w 0 x false = decide (x ≠ 0) := by
  rw [Bool.eq_iff_iff, carrySub_iff, decide_eq_true_iff, ne_eq, ← BitVec.toNat_inj]
  simp [Nat.pos_iff_ne_zero]

/-- Only `-2^(n-1)` has a negation out of range. -/
theorem overflowSub_zero_left (w : OpWidth) (x : BitVec w.bits) :
    overflowSub w 0 x false = decide (x = BitVec.twoPow w.bits (w.bits - 1)) := by
  have hmin : (BitVec.twoPow w.bits (w.bits - 1)).toInt = -(2 : Int) ^ (w.bits - 1) := by cases w <;> rfl
  have hlow := x.le_toInt
  have hhigh := x.toInt_lt
  rw [Bool.eq_iff_iff, decide_eq_true_iff, ← BitVec.toInt_inj, hmin, overflowSub, outOfSignedRange_iff]
  simp only [BitVec.ofNat_eq_ofNat, BitVec.toInt_zero, Bool.toNat_false, Nat.cast_zero]
  omega

/-- Settles O52: the results and the two flags of 0 - x in closed form; CF is kept in FLAGS as in the outcome. -/
theorem negIncDecFlags : Obligations.NegIncDecFlags :=
  ⟨rfl, fun w x _ _ _ _ =>
    ⟨rfl, rfl, rfl, rfl, subResult_zero_left w x, congrArg FlagEffect.set (carrySub_zero_left w x),
      congrArg FlagEffect.set (overflowSub_zero_left w x), addResult_one w x, subResult_one w x, rfl, rfl,
      FlagOutcome.readFlag_apply .., FlagOutcome.readFlag_apply ..⟩⟩

/-! ### The add and sub classes (R277, R278) -/

theorem classArguments_eq_operands {x : Instruction}
    (h : x.type ∉ [InstructionType.CMPSB, .CMPSW, .SCASB, .SCASW]) :
    classArguments x = x.operands.map ValueSource.operand := by
  unfold classArguments
  split <;> simp_all

theorem operand_types_not_string :
    ∀ t ∈ [InstructionType.ADD, .ADC, .SUB, .SBB, .CMP, .NEG, .INC, .DEC, .AND, .TEST, .OR, .XOR],
      t ∉ [InstructionType.CMPSB, .CMPSW, .SCASB, .SCASW] := by
  decide

@[simp] theorem RegisterValue.atWidth_byte (b : Byte) : (RegisterValue.byte b).atWidth .byte = b :=
  BitVec.setWidth_eq b

@[simp] theorem RegisterValue.atWidth_word (v : Word) : (RegisterValue.word v).atWidth .word = v :=
  BitVec.setWidth_eq v

/-- SCAS subtracts the element at ES:DI from the accumulator (43_string.md R206, R207). -/
theorem consumerClass_scasb (r : Registers8086) (mem : DataMemory) (n : Nat) :
    consumerClass r mem ⟨0xAE, n, .SCASB, .byte, []⟩ =
      some (subClass .byte (lowByte r.ax) (mem .byte r.es r.di) false) :=
  congrArg (fun a => some (subClass .byte a (mem .byte r.es r.di) false)) (RegisterValue.atWidth_byte (lowByte r.ax))

theorem consumerClass_scasw (r : Registers8086) (mem : DataMemory) (n : Nat) :
    consumerClass r mem ⟨0xAF, n, .SCASW, .word, []⟩ = some (subClass .word r.ax (mem .word r.es r.di) false) :=
  congrArg (fun a => some (subClass .word a (mem .word r.es r.di) false)) (RegisterValue.atWidth_word r.ax)

theorem classResult_sub {t : InstructionType} {useCarry : Bool} (h : flagClass t = .sub useCarry) (w : OpWidth)
    (a b : BitVec w.bits) (cf : Bool) : classResult t w a b cf = some (subClass w a b (useCarry && cf)) := by
  simp only [classResult, h]

theorem flagClass_sub_without_borrow :
    ∀ t ∈ [InstructionType.SUB, .CMP, .CMPSB, .CMPSW, .SCASB, .SCASW], flagClass t = .sub false := by
  decide

/-- Settles O48: whose the classes are and what they are is read off their definitions; that they are exact is the whole
sum and the whole difference. -/
theorem carryAndBorrowAreExact : Obligations.CarryAndBorrowAreExact :=
  ⟨rfl, fun x hx => classArguments_eq_operands (operand_types_not_string x.type hx),
    fun r mem n => ⟨rfl, rfl, consumerClass_scasb r mem n, consumerClass_scasw r mem n⟩,
    fun w a b c => ⟨rfl, rfl, rfl, fun t ht => classResult_sub (flagClass_sub_without_borrow t ht) w a b c, rfl, rfl,
      carryAdd_iff, carrySub_iff, addResult_carryAdd w a b c, subResult_carrySub w a b c⟩⟩

/-! ### No class (R283), and the worked vectors (R284) -/

theorem classResult_none {t : InstructionType} (h : flagClass t = .none) (w : OpWidth) (a b : BitVec w.bits)
    (cf : Bool) : classResult t w a b cf = none := by
  simp only [classResult, h]

theorem flagClass_of_noFlagClassTypes : ∀ t ∈ noFlagClassTypes, flagClass t = .none := by decide

/-- Settles O55: `flagClass` is none at each of the types. -/
theorem noFlagClass : Obligations.NoFlagClass :=
  fun t ht w a b cf => classResult_none (flagClass_of_noFlagClassTypes t ht) w a b cf

/-- Settles O46: each row is evaluated. -/
theorem flagVectors : Obligations.FlagVectors := by
  unfold Obligations.FlagVectors
  decide

end Sys2Proof.Machine

/-! That the steps of a `GetAssembly` call compute the spec's own loop, and how they return. -/

namespace Sys2Proof.Machine

/-! ### The return -/

theorem State.atBoundary_not_failed {s : State} (h : s.atBoundary = true) (e : Error) : s.phase ≠ .failed e := by
  intro hp
  simp [State.atBoundary, hp] at h

theorem State.exhausted_iff {s : State} :
    s.exhausted = true ↔ s.entryPoint = .getAssembly ∧ s.atBoundary = true ∧ s.pos = s.buf.size := by
  simp [State.exhausted, and_assoc]

theorem State.returned_of_getAssembly {s : State} (h : s.entryPoint = .getAssembly) : s.returned = s.text.isSome := by
  rw [State.returned, h]

/-- Settles O22: the step of an exhausted call sets the text, and that of a returned call changes nothing. -/
theorem getAssemblyReturnsJoinedLines : Obligations.GetAssemblyReturnsJoinedLines := by
  intro s hadm hentry htext hbound hend
  have hret : s.returned = false := by rw [State.returned_of_getAssembly hentry, htext, Option.isSome_none]
  refine ⟨step_of_exhausted hadm hend.le (State.atBoundary_not_failed hbound) hret
    (State.exhausted_iff.mpr ⟨hentry, hbound, hend⟩), ?_⟩
  exact step_of_returned (s := s.returnText) hadm hend.le (State.atBoundary_not_failed (s := s.returnText) hbound)
    (State.returned_of_getAssembly (s := s.returnText) hentry)

/-! ### Between two instructions -/

/-- Some number of steps ends with this text. -/
def State.Assembles (s : State) (r : CallResult String) : Prop :=
  ∃ k t, Sys2Proof.core.run k s = .next t ∧ t.text = some r

theorem assembles_of_text {s : State} {r : CallResult String} (h : s.text = some r) : s.Assembles r :=
  ⟨0, s, run_zero s, h⟩

theorem assembles_of_step {s t : State} {r : CallResult String} (h : step s = .next t) (ht : t.Assembles r) :
    s.Assembles r := by
  obtain ⟨k, u, hu, htext⟩ := ht
  exact ⟨k + 1, u, (run_succ h k).trans hu, htext⟩

/-- What a state that has not returned ends with is what its next step leads to. -/
theorem assembles_of_step_eq {s t : State} {r : CallResult String} (h : step s = step t) (htext : t.text = none)
    (ht : t.Assembles r) : s.Assembles r := by
  obtain ⟨k, u, hu, hres⟩ := ht
  cases k with
  | zero =>
    cases (run_zero t).symm.trans hu
    cases htext.symm.trans hres
  | succ k =>
    have hstep : Sys2Proof.core.step s = Sys2Proof.core.step t := h
    exact ⟨k + 1, u, by simpa only [Host.Core.run, hstep] using hu, hres⟩

/-- `GetAssembly` on `B` has the cursor at `q` and these lines, and no decode call is in progress. -/
structure State.BetweenLines (B : Memory) (mode : OutputValueMode) (q : Nat) (lines : List String) (s : State) :
    Prop where
  buf : s.buf = B
  mode : s.mode = mode
  pos : s.pos = q
  lines : s.lines = lines
  entryPoint : s.entryPoint = .getAssembly
  text : s.text = none
  atBoundary : s.atBoundary = true
  pos_le : q ≤ B.size

/-- The algorithm's answer for an instruction at `p0`, carried out by `GetAssembly`: one more line, or its Error. -/
def State.TakesLine (B : Memory) (mode : OutputValueMode) (p0 : Nat) (lines : List String) (t : State) :
    Except Error Instruction → Prop
  | .ok x => t.BetweenLines B mode (p0 + x.length) (lines ++ [render mode x])
  | .error e => t.text = some (.err e)

/-! ### One instruction -/

/-- A meaning that completes a call has kept what `Keeps` says up to the completion. -/
theorem exec_complete_keeps {i : Instr} {s t : State} (h : exec i s = .next t) (hc : t.phase = .complete) :
    ∃ u type width operands, Keeps s u ∧ t = complete type width operands u := by
  rcases exec_cases i s with ⟨seg, hseg⟩ | ⟨parts, type, width, operands, hparts, -, hdecode⟩
  · exact absurd hc (readSegPrefix_not_complete (hseg.symm.trans h))
  · rcases decodeWith_outcome hparts type width operands s with ⟨u, -, hk, -, hnext⟩ | ⟨e, w, -, -, hnext⟩
    · cases (hdecode.trans hnext).symm.trans h
      exact ⟨u, type, width, operands, hk, rfl⟩
    · cases (hdecode.trans hnext).symm.trans h
      cases hc

/-- A decode call of `GetAssembly` in progress that has read nothing but prefixes. -/
structure State.Assembling (s : State) : Prop where
  admitted : s.buf.admitted = true
  start_le : s.p0 ≤ s.pos
  start_lt : s.p0 < s.buf.size
  pos_le : s.pos ≤ s.buf.size
  entryPoint : s.entryPoint = .getAssembly
  text : s.text = none
  phase : s.phase = .start
  ready : s.ready = s

theorem State.Assembling.step_eq {s : State} (h : s.Assembling) : step s = decodeUnit exec s := by
  have hret : s.returned = false := by rw [State.returned_of_getAssembly h.entryPoint, h.text, Option.isSome_none]
  have hex : s.exhausted = false := by
    rw [Bool.eq_false_iff, Ne, State.exhausted_iff]
    rintro ⟨-, hbound, hend⟩
    have hstart : s.pos = s.p0 := by simpa [State.atBoundary, h.phase] using hbound
    have hlt := h.start_lt
    omega
  rw [step_of_running ⟨h.admitted, h.pos_le, fun e he => (nomatch h.phase.symm.trans he), hret, hex⟩, h.ready]

theorem State.Assembling.step_of_prefix {s : State} (h : s.Assembling) {g : SegmentType}
    (hread : s.buf.read s.pos = some (segPrefixByte g)) :
    step s = .next (s.withPrefix g) ∧ (s.withPrefix g).Assembling := by
  have hlt : s.pos + 1 ≤ s.buf.size := read_eq_some_iff.mp ⟨_, hread⟩
  obtain ⟨bs, hbs⟩ := fetch_of_read hread
  obtain ⟨i, -, hi, hexec⟩ := decode_segPrefixByte g bs
  have hstart := h.start_le
  refine ⟨?_, h.admitted, hstart.trans (Nat.le_succ _), h.start_lt, hlt, h.entryPoint, h.text, h.phase,
    ready_of_not_atBoundary ?_⟩
  · rw [h.step_eq, decodeUnit_of_ok (hbs ▸ hi), hexec, readSegPrefix_ok hlt, State.withPrefix, ← h.phase]
  · have hne : s.pos + 1 ≠ s.p0 := by omega
    simpa [State.atBoundary, State.withPrefix, h.phase] using hne

theorem takesLine_of_error {s : State} (h : s.Assembling) {e : DecodeError} (hd : decode s.fetch = .error e) :
    ∃ t, step s = .next t ∧ t.TakesLine s.buf s.mode s.p0 s.lines (.error (errorOf s.p0 s.pos e)) :=
  ⟨_, h.step_eq.trans (decodeUnit_of_error hd), by simp [State.TakesLine, h.entryPoint]⟩

/-- Where the machine's decoder and the algorithm agree, a step carries the algorithm's answer out. -/
theorem Answers.takesLine {s : State} (hs : s.Assembling) {a : Except Error Instruction}
    (h : Answers s (decode s.fetch) a) : ∃ t, step s = .next t ∧ t.TakesLine s.buf s.mode s.p0 s.lines a := by
  cases hd : decode s.fetch with
  | error e =>
    rw [hd] at h
    cases h
    exact takesLine_of_error hs hd
  | ok r =>
    rw [hd] at h
    obtain ⟨x, t, rfl, ht, hc, hres⟩ := h
    refine ⟨t, (hs.step_eq.trans (decodeUnit_of_ok hd)).trans ht, ?_⟩
    obtain ⟨u, type, width, operands, hk, rfl⟩ := exec_complete_keeps ht hc
    cases hres
    have hentry : u.entryPoint = .getAssembly := hk.entryPoint.trans hs.entryPoint
    have hend : s.p0 + (u.pos - u.p0) = u.pos := by
      have hp0 := hk.p0
      have hle := hs.start_le.trans hk.pos_ge
      omega
    exact {
      buf := hk.buf
      mode := hk.mode
      pos := hend.symm
      lines := by simp only [complete_lines, hentry, if_true, hk.lines, hk.mode]
      entryPoint := hentry
      text := hk.text.trans hs.text
      atBoundary := rfl
      pos_le := hend.trans_le (hk.pos_le hs.pos_le) }

/-- A call in progress goes on, past its segment overrides, to the algorithm's answer from its cursor and segment
override on: it ends with what every state that carries that answer out ends with. -/
theorem State.Assembling.assembles {s : State} (h : s.Assembling) {fuel : Nat} (hfuel : s.buf.size - s.pos < fuel)
    {r : CallResult String}
    (hr : ∀ t : State, t.TakesLine s.buf s.mode s.p0 s.lines (readOpcode s.buf s.p0 fuel s.pos s.seg >>= fun x =>
      decodeEntry s.buf s.p0 x.2.2 x.1 x.2.1 (primary x.1)) → t.Assembles r) : s.Assembles r := by
  induction fuel generalizing s with
  | zero => exact absurd hfuel (Nat.not_lt_zero _)
  | succ fuel ih =>
    cases hread : s.buf.read s.pos with
    | none =>
      have hend : s.pos = s.buf.size :=
        h.pos_le.antisymm (not_lt.mp fun hlt => by simp [Memory.read, hlt] at hread)
      have hd : decode s.fetch = .error (.endOfStream 0) := by rw [fetch_of_end hend]; rfl
      obtain ⟨t, ht, hline⟩ := takesLine_of_error h hd
      rw [readOpcode_of_end hread] at hr
      exact assembles_of_step ht (hr t hline)
    | some b =>
      by_cases hb : b ∈ segPrefixBytes
      · obtain ⟨g, rfl⟩ := mem_segPrefixBytes.mp hb
        obtain ⟨hstep, hnext⟩ := h.step_of_prefix hread
        have hlt : s.pos < s.buf.size := read_eq_some_iff.mp ⟨_, hread⟩
        rw [readOpcode_of_prefix hread] at hr
        exact assembles_of_step hstep (ih hnext (by show s.buf.size - (s.pos + 1) < fuel; omega) hr)
      · obtain ⟨t, ht, hline⟩ := (decode_answers h.pos_le hread hb).takesLine h
        rw [readOpcode_of_opcode hread hb] at hr
        exact assembles_of_step ht (hr t hline)

/-! ### The loop -/

section
variable {B : Memory} {mode : OutputValueMode} {pos : Nat} {lines : List String} {s : State}

theorem State.BetweenLines.returned (h : s.BetweenLines B mode pos lines) : s.returned = false := by
  rw [State.returned_of_getAssembly h.entryPoint, h.text, Option.isSome_none]

/-- With bytes left, the next instruction's call begins. -/
theorem State.BetweenLines.beginCall (h : s.BetweenLines B mode pos lines) (hB : B.admitted = true)
    (hlt : pos < B.size) : s.beginCall.Assembling ∧ step s = step s.beginCall := by
  obtain ⟨rfl, -, rfl, -, hentry, htext, hbound, hpos⟩ := id h
  have hcall : s.beginCall.Assembling :=
    ⟨hB, le_refl _, hlt, hpos, hentry, htext, rfl, ready_of_atBoundary (beq_self_eq_true s.pos)⟩
  have hex : s.exhausted = false := by
    rw [Bool.eq_false_iff, Ne, State.exhausted_iff]
    exact fun hend => hlt.ne hend.2.2
  refine ⟨hcall, ?_⟩
  rw [step_of_running ⟨hB, hpos, State.atBoundary_not_failed hbound, h.returned, hex⟩, ready_of_atBoundary hbound,
    hcall.step_eq]

/-- The steps of `GetAssembly` compute the rest of the spec's loop. -/
theorem State.BetweenLines.assembles (h : s.BetweenLines B mode pos lines) (hB : B.admitted = true) {fuel : Nat}
    (hfuel : B.size - pos < fuel) : s.Assembles (resultOf (assemblyLoop B mode fuel pos lines)) := by
  induction fuel generalizing s pos lines with
  | zero => exact absurd hfuel (Nat.not_lt_zero _)
  | succ fuel ih =>
    by_cases hlt : pos < B.size
    · obtain ⟨hcall, hstep⟩ := h.beginCall hB hlt
      obtain ⟨rfl, rfl, rfl, rfl, -, htext, -, -⟩ := h
      refine assembles_of_step_eq hstep htext (hcall.assembles (Nat.lt_succ_self _) fun t ht => ?_)
      have hline : t.TakesLine s.buf s.mode s.pos s.lines (decodeAt s.buf s.pos) := ht
      rw [assemblyLoop, if_pos hlt]
      cases hd : decodeAt s.buf s.pos with
      | error e =>
        rw [hd] at hline
        exact assembles_of_text hline
      | ok x =>
        rw [hd] at hline
        have hprogress : s.pos < s.pos + x.length := (readOpcode_ok hd (le_refl _)).1
        exact ih hline (by omega)
    · obtain ⟨rfl, -, rfl, rfl, hentry, -, hbound, hpos⟩ := id h
      have hend : s.pos = s.buf.size := hpos.antisymm (not_lt.mp hlt)
      have hstep := step_of_exhausted hB hpos (State.atBoundary_not_failed hbound) h.returned
        (State.exhausted_iff.mpr ⟨hentry, hbound, hend⟩)
      rw [assemblyLoop, if_neg hlt]
      exact assembles_of_step hstep (assembles_of_text (returnText_text s))

end

/-- Settles O24: by induction on the instructions, each carried out by the steps of one decode call, up to the end of
the stream or the first Error. -/
theorem machineRefinesGetAssembly : Obligations.MachineRefinesGetAssembly := by
  intro B label mode hB
  have h : (State.ofCall .getAssembly B 0 label mode).BetweenLines B mode 0 [] :=
    ⟨rfl, rfl, rfl, rfl, rfl, rfl, rfl, Nat.zero_le _⟩
  exact h.assembles hB (Nat.lt_succ_self _)

end Sys2Proof.Machine

/-! That the label has no effect: every operation of a step commutes with changing it. -/

namespace Sys2Proof.Machine

/-! ### States that differ in the label -/

/-- `s` with label `l`. -/
def State.relabel (l : String) (s : State) : State := { s with label := l }

/-- `f` answers a relabelled state as the state itself, the label apart. -/
def LabelFree (f : State → Result) : Prop :=
  ∀ (l : String) (s : State), related (fun a b => a = b.relabel l) (f (s.relabel l)) (f s)

/-- A part succeeds or fails alike in a relabelled state, the label apart. -/
def Part.LabelFree (p : Part) : Prop :=
  ∀ (l : String) (s : State),
    (∀ t, p s = .ok t → p (s.relabel l) = .ok (t.relabel l)) ∧
      ∀ e t, p s = .error (e, t) → p (s.relabel l) = .error (e, t.relabel l)

/-- A read is label-free if what it reads into is. -/
theorem reading_labelFree {n : Nat} {before : List Phase} {next : State → Nat → State}
    (h : ∀ l s pos, next (s.relabel l) pos = (next s pos).relabel l) :
    Part.LabelFree fun s => reading n (s.through before) (next s) := by
  intro l s
  by_cases hr : s.pos + n ≤ s.buf.size
  · have hs := reading_ok (s := s.through before) (next s) hr
    have hl := reading_ok (s := (s.relabel l).through before) (next (s.relabel l)) hr
    rw [h] at hl
    exact ⟨fun t ht => Except.ok.inj (hs.symm.trans ht) ▸ hl, fun e t he => nomatch hs.symm.trans he⟩
  · have hs := reading_error (s := s.through before) (next s) hr
    have hl := reading_error (s := (s.relabel l).through before) (next (s.relabel l)) hr
    refine ⟨fun t ht => (nomatch hs.symm.trans ht), fun e t he => ?_⟩
    cases hs.symm.trans he
    exact hl

theorem reading_labelFree_nil {n : Nat} {next : State → Nat → State}
    (h : ∀ l s pos, next (s.relabel l) pos = (next s pos).relabel l) :
    Part.LabelFree fun s => reading n s (next s) := by
  simpa only [through_nil] using reading_labelFree (before := []) h

theorem opcodeRead_labelFree (op : Byte) : Part.LabelFree (opcodeRead op) := reading_labelFree_nil fun _ _ _ => rfl

theorem modrmRead_labelFree (reg : BitVec 3) (e : RM) : Part.LabelFree (modrmRead reg e) :=
  reading_labelFree_nil fun _ _ _ => rfl

theorem displacementField_labelFree (n : Nat) (d : Disp) : Part.LabelFree (displacementField n d) :=
  reading_labelFree_nil fun _ _ _ => rfl

theorem imm1Read_labelFree (i : Imm) : Part.LabelFree (imm1Read i) := reading_labelFree fun _ _ _ => rfl

theorem imm2Read_labelFree (i : Imm) : Part.LabelFree (imm2Read i) := reading_labelFree_nil fun _ _ _ => rfl

/-- A part that reads no byte. -/
theorem update_labelFree {g : State → State} (h : ∀ l s, g (s.relabel l) = (g s).relabel l) :
    Part.LabelFree fun s => .ok (g s) :=
  fun l s => ⟨fun _ ht => congrArg Except.ok ((h l s).trans (congrArg _ (Except.ok.inj ht))),
    fun _ _ he => nomatch he⟩

theorem displacementRead_labelFree (e : RM) : Part.LabelFree (displacementRead e) := by
  match e with
  | .reg _ => exact update_labelFree (g := id) fun _ _ => rfl
  | .mem (.noDisp _) => exact update_labelFree (g := fun s => { s with disp := .noDisp }) fun _ _ => rfl
  | .mem (.direct _) | .mem (.disp16 _ _) => exact displacementField_labelFree 2 _
  | .mem (.disp8 _ _) => exact displacementField_labelFree 1 _

theorem runParts_labelFree {ps : List Part} (h : ∀ p ∈ ps, Part.LabelFree p) : Part.LabelFree (runParts ps) := by
  induction ps with
  | nil => exact update_labelFree (g := id) fun _ _ => rfl
  | cons p ps ih =>
    intro l s
    obtain ⟨hok, herror⟩ := h p (List.mem_cons_self ..) l s
    cases hp : p s with
    | ok u =>
      rw [runParts_cons_ok hp, runParts_cons_ok (hok u hp)]
      exact ih (fun q hq => h q (List.mem_cons_of_mem _ hq)) l u
    | error x =>
      rw [runParts_cons_error hp, runParts_cons_error (herror x.1 x.2 hp)]
      refine ⟨fun _ ht => (nomatch ht), fun e t he => ?_⟩
      cases he
      rfl

theorem DecodeParts.labelFree {ps : List Part} (h : DecodeParts ps) : Part.LabelFree (runParts ps) := by
  apply runParts_labelFree
  cases h <;>
    simp [opcodeRead_labelFree, modrmRead_labelFree, displacementRead_labelFree, imm1Read_labelFree, imm2Read_labelFree]

/-! ### A step -/

theorem decodeWith_labelFree {ps : List Part} (hps : DecodeParts ps) (type : InstructionType) (width : DataWidth)
    (operands : List Operand) : LabelFree (decodeWith ps type width operands) := by
  intro l s
  obtain ⟨hok, herror⟩ := hps.labelFree l s
  cases hs : runParts ps s with
  | ok t => simp only [decodeWith, hs, hok t hs]; rfl
  | error x => simp only [decodeWith, hs, herror x.1 x.2 hs]; rfl

theorem readSegPrefix_labelFree (seg : SegmentType) : LabelFree (readSegPrefix seg) := by
  intro l s
  by_cases hr : s.pos + 1 ≤ s.buf.size
  · rw [readSegPrefix_ok hr, readSegPrefix_ok (s := s.relabel l) hr]
    rfl
  · rw [readSegPrefix_error hr, readSegPrefix_error (s := s.relabel l) hr]
    rfl

theorem exec_labelFree (i : Instr) : LabelFree (exec i) := by
  intro l s
  rcases exec_plan i with ⟨seg, hseg⟩ | ⟨p, hp⟩
  · rw [hseg, hseg]
    exact readSegPrefix_labelFree seg l s
  · rw [hp.exec_eq, hp.exec_eq]
    exact decodeWith_labelFree (p.fields.decodeParts p.op) p.type p.width (p.operands s.seg) l s

theorem decodeUnit_labelFree : LabelFree (decodeUnit exec) := by
  intro l s
  have hfetch : (s.relabel l).fetch = s.fetch := rfl
  cases hd : decode s.fetch with
  | ok x =>
    rw [decodeUnit_of_ok hd, decodeUnit_of_ok (hfetch ▸ hd)]
    exact exec_labelFree x.1 l s
  | error e =>
    rw [decodeUnit_of_error hd, decodeUnit_of_error (hfetch ▸ hd)]
    rfl

theorem ready_relabel (l : String) (s : State) : (s.relabel l).ready = s.ready.relabel l := by
  have hb : (s.relabel l).atBoundary = s.atBoundary := rfl
  cases hs : s.atBoundary with
  | true => rw [ready_of_atBoundary hs, ready_of_atBoundary (hb.trans hs)]; rfl
  | false => rw [ready_of_not_atBoundary hs, ready_of_not_atBoundary (hb.trans hs)]

/-- A step chooses its branch by the buffer, the cursor, the phase and whether the call has returned or is exhausted:
states that agree in these have related outcomes if each branch relates them. -/
theorem step_related {R : State → State → Prop} {s t : State} (hbuf : s.buf = t.buf) (hpos : s.pos = t.pos)
    (hphase : s.phase = t.phase) (hret : s.returned = t.returned) (hex : s.exhausted = t.exhausted) (h : R s t)
    (htext : R s.returnText t.returnText)
    (hunit : related R (decodeUnit exec s.ready) (decodeUnit exec t.ready)) : related R (step s) (step t) := by
  simp only [step, callStep, hbuf, hpos, hphase, hret, hex]
  split_ifs
  · rfl
  · rfl
  all_goals
    cases t.phase with
    | failed e => rfl
    | _ => assumption

/-- Settles O5: a relabelled state takes the same branch of a step, and each branch is label-free. -/
theorem labelHasNoEffect : Obligations.LabelHasNoEffect := by
  intro s l
  have hunit := decodeUnit_labelFree l s.ready
  rw [← ready_relabel] at hunit
  exact step_related (s := s.relabel l) (R := fun a b => a = b.relabel l) rfl rfl rfl rfl rfl rfl rfl hunit

end Sys2Proof.Machine

/-! The renderer's numbers: decimal and hex digits, and the values they stand for. -/

namespace Sys2Proof.Machine

/-! ### Decimal -/

theorem toList_decimal (n : Nat) : (decimal n).toList = Nat.toDigits 10 n := String.toList_ofList

/-- The digits have the number's value. -/
theorem decimal_value (n : Nat) : (decimal n).toList.foldl (fun a c => 10 * a + (c.toNat - 48)) 0 = n := by
  rw [toList_decimal]
  exact Nat.ofDigitChars_ten_toDigits

theorem digit_of_mem_decimal {n : Nat} {c : Char} (h : c ∈ (decimal n).toList) : '0' ≤ c ∧ c ≤ '9' := by
  rw [toList_decimal] at h
  have hd : c.isDigit = true := Nat.isDigit_of_mem_toDigits (by decide) (by decide) h
  exact Char.isDigit_iff_toNat.mp hd

/-- The first digit of a number is that of the number without its last digit, so no leading digit is 0. -/
theorem head?_toDigits_ne {n : Nat} (h : n ≠ 0) : (Nat.toDigits 10 n).head? ≠ some '0' := by
  induction n using Nat.strongRecOn with
  | _ n ih =>
    rcases Nat.lt_or_ge n 10 with hlt | hge
    · have one_digit : ∀ k < 10, k ≠ 0 → Nat.digitChar k ≠ '0' := by decide
      rw [Nat.toDigits_of_lt_base hlt, List.head?_cons]
      exact fun h0 => one_digit n hlt h (Option.some_inj.mp h0)
    · rw [Nat.toDigits_of_base_le (by decide) hge, List.head?_append_of_ne_nil _ Nat.toDigits_ne_nil]
      exact ih (n / 10) (by omega) (by omega)

theorem signedDecimal_natCast (n : Nat) : signedDecimal n = decimal n := rfl

theorem signedDecimal_neg {n : Nat} (h : 0 < n) : signedDecimal (-(n : Int)) = "-" ++ decimal n := by
  obtain ⟨k, rfl⟩ := Nat.exists_eq_succ_of_ne_zero h.ne'
  rfl

/-! ### Hex -/

/-- The value of an upper-case hex digit, as `DecimalsAreExact` reads it. -/
def hexValue (c : Char) : Nat := if c ≤ '9' then c.toNat - 48 else c.toNat - 55

@[simp] theorem hexValue_hexDigit (d : BitVec 4) : hexValue (hexDigit d) = d.toNat := by revert d; decide

theorem hexDigit_range (d : BitVec 4) :
    ('0' ≤ hexDigit d ∧ hexDigit d ≤ '9') ∨ ('A' ≤ hexDigit d ∧ hexDigit d ≤ 'F') := by
  revert d; decide

/-- The digits of an immediate, high to low. -/
def Imm.hexDigits : Imm → List (BitVec 4)
  | .byte b _ => [b.extractLsb' 4 4, b.extractLsb' 0 4]
  | .word v _ => [v.extractLsb' 12 4, v.extractLsb' 8 4, v.extractLsb' 4 4, v.extractLsb' 0 4]

theorem toList_hexText (i : Imm) : (hexText i).toList = '0' :: 'x' :: i.hexDigits.map hexDigit := by
  cases i <;> exact String.toList_ofList

theorem hexDigits_length (i : Imm) : i.hexDigits.length = 2 * i.size := by cases i <;> rfl

/-- The digits have the value of the immediate's bits. -/
theorem hexDigits_value (i : Imm) : i.hexDigits.foldl (fun a d => 16 * a + d.toNat) 0 = i.uint := by
  cases i
  all_goals
    simp only [Imm.hexDigits, Imm.uint, List.foldl_cons, List.foldl_nil, BitVec.extractLsb'_toNat,
      Nat.shiftRight_eq_div_pow]
    omega

/-- Settles O59: the library's digits of a number, and an immediate's digits, have its value. -/
theorem decimalsAreExact : Obligations.DecimalsAreExact := by
  refine ⟨fun n => ⟨decimal_value n, fun _ => digit_of_mem_decimal, fun h => ?_, ?_⟩,
    fun n => ⟨signedDecimal_natCast n, signedDecimal_neg⟩, fun i => ?_⟩
  · rw [toList_decimal]
    exact head?_toDigits_ne h
  · rintro rfl
    exact (toList_decimal 0).trans (Nat.toDigits_zero 10)
  · have hvalue : (i.hexDigits.map hexDigit).foldl (fun a c => 16 * a + hexValue c) 0 = i.uint := by
      simp only [List.foldl_map, hexValue_hexDigit, hexDigits_value]
    rw [toList_hexText]
    refine ⟨rfl, ?_, fun c hc => ?_, hvalue⟩
    · simp only [List.length_cons, List.length_map, hexDigits_length]; omega
    · obtain ⟨d, -, rfl⟩ := List.mem_map.mp hc
      exact hexDigit_range d

end Sys2Proof.Machine

/-! The renderer's texts: what each operand renders as, and the characters of a line. -/

namespace Sys2Proof.Machine

/-! ### The texts of a line -/

theorem render_nil {x : Instruction} (h : x.operands = []) (mode : OutputValueMode) : render mode x = x.type.name := by
  rw [render, h]

theorem render_cons {x : Instruction} {a : Operand} {l : List Operand} (h : x.operands = a :: l)
    (mode : OutputValueMode) : render mode x = x.type.name ++ " " ++ operandsText mode x := by
  rw [render, h]

/-- The far pair (47_renderer.md R298). -/
theorem operandsText_farPair {x : Instruction} {g o : Imm} (h : x.operands = [.immediate g, .immediate o])
    (hg : g.flag = .farSegment) (ho : o.flag = .farOffset) (mode : OutputValueMode) :
    operandsText mode x = immText mode g ++ ":" ++ immText mode o := by
  rw [operandsText, h]
  exact if_pos ⟨hg, ho⟩

/-- Any other operands are joined by a comma and a space (47_renderer.md R292). -/
theorem operandsText_of_not_farPair {x : Instruction}
    (h : ∀ g o, x.operands = [.immediate g, .immediate o] → ¬ (g.flag = .farSegment ∧ o.flag = .farOffset))
    (mode : OutputValueMode) : operandsText mode x = joinWith ", " (x.operands.map (operandText mode x)) := by
  unfold operandsText
  split
  next g o hx => rw [if_neg (h g o hx), hx]; rfl
  next => rfl

theorem render_single {x : Instruction} {a : Operand} (h : x.operands = [a]) (mode : OutputValueMode) :
    render mode x = x.type.name ++ " " ++ operandText mode x a := by
  rw [render_cons h, operandsText_of_not_farPair (by simp [h]), h]
  rfl

theorem render_pair {x : Instruction} {a b : Operand} (h : x.operands = [a, b])
    (hpair : ∀ g o, ¬ (a = .immediate g ∧ g.flag = .farSegment ∧ b = .immediate o ∧ o.flag = .farOffset))
    (mode : OutputValueMode) :
    render mode x = x.type.name ++ " " ++ operandText mode x a ++ ", " ++ operandText mode x b := by
  rw [render_cons h, operandsText_of_not_farPair, h]
  · have hjoin : joinWith ", " ([a, b].map (operandText mode x)) =
        operandText mode x a ++ ", " ++ operandText mode x b := rfl
    rw [hjoin]
    simp only [String.append_assoc]
  · rintro g o hx ⟨hg, ho⟩
    cases h.symm.trans hx
    exact hpair g o ⟨rfl, hg, rfl, ho⟩

/-! ### Immediates -/

theorem immText_none {i : Imm} (h : i.flag = .none) :
    immText .asInteger i = signedDecimal i.sint ∧ immText .asHex i = hexText i := by
  simp only [immText, h, true_and]

theorem immText_relative {i : Imm} (h : i.flag = .relativeJumpDisplacement) (mode : OutputValueMode) :
    immText mode i = signedDecimal i.sint := by
  simp only [immText, h]

theorem immText_constant {i : Imm} (h : i.flag ∈ [ImmediateFlag.implicitOne, .escapeCode]) (mode : OutputValueMode) :
    immText mode i = decimal i.uint := by
  simp only [List.mem_cons, List.not_mem_nil, or_false] at h
  rcases h with h | h <;> simp only [immText, h]

/-- An immediate that is unsigned by its role (47_renderer.md R296). -/
theorem immText_unsigned {i : Imm}
    (h : i.flag ∈ [ImmediateFlag.portNumber, .interruptType, .stackAdjust, .farSegment, .farOffset])
    (mode : OutputValueMode) : immText mode i = unsignedText mode i := by
  unfold immText
  cases hf : i.flag <;> simp [hf] at h ⊢

theorem render_farPair {x : Instruction} {g o : Imm} (h : x.operands = [.immediate g, .immediate o])
    (hg : g.flag = .farSegment) (ho : o.flag = .farOffset) (mode : OutputValueMode) :
    render mode x = x.type.name ++ " " ++ unsignedText mode g ++ ":" ++ unsignedText mode o := by
  rw [render_cons h, operandsText_farPair h hg ho, immText_unsigned (by simp [hg]), immText_unsigned (by simp [ho])]
  simp only [String.append_assoc]

/-! ### Memory operands -/

theorem memText_direct (d : Disp) : memText ⟨.DIRECT, d, none⟩ = "[" ++ decimal d.value.toNat ++ "]" := by
  simp [memText]

theorem memText_of_form {f : EAForm} (h : f ≠ .DIRECT) (d : Disp) :
    memText ⟨f, d, none⟩ = "[" ++ eaText f ++ dispText d.value ++ "]" := by
  cases f with
  | DIRECT => exact absurd rfl h
  | _ => simp [memText, String.append_assoc]

/-- The override's name stands before the brackets (47_renderer.md R302). -/
theorem memText_override (f : EAForm) (d : Disp) (g : SegmentType) :
    memText ⟨f, d, some g⟩ = (segName g).name ++ ":" ++ memText ⟨f, d, none⟩ := by
  simp only [memText, String.append_assoc, String.empty_append]

theorem dispText_zero {v : Word} (h : v.toInt = 0) : dispText v = "" := if_pos h

theorem dispText_pos {v : Word} {n : Nat} (hn : 0 < n) (h : v.toInt = n) : dispText v = " + " ++ decimal n := by
  rw [dispText, if_neg (by omega), if_pos (by omega), h, signedDecimal_natCast]

theorem dispText_neg {v : Word} {n : Nat} (hn : 0 < n) (h : v.toInt = -(n : Int)) :
    dispText v = " - " ++ decimal n := by
  rw [dispText, if_neg (by omega), if_neg (by omega), h, neg_neg, signedDecimal_natCast]

/-- The terms of the forms with a base or an index (10_state.md R35; 47_renderer.md R299). -/
theorem eaText_forms : ∀ row ∈ [(EAForm.BX_SI, "BX + SI"), (.BX_DI, "BX + DI"), (.BP_SI, "BP + SI"),
    (.BP_DI, "BP + DI"), (.SI, "SI"), (.DI, "DI"), (.BP, "BP"), (.BX, "BX")],
    row.1 ≠ .DIRECT ∧ eaText row.1 = row.2 := by
  decide

/-- A form with a base or an index: its terms, then the displacement by its sign (47_renderer.md R299, R301). -/
theorem memText_by_sign {f : EAForm} {terms : String} (h : f ≠ .DIRECT ∧ eaText f = terms) (d : Disp) (n : Nat) :
    (d.value.toInt = 0 → memText ⟨f, d, none⟩ = "[" ++ terms ++ "]") ∧
      (0 < n → d.value.toInt = n → memText ⟨f, d, none⟩ = "[" ++ terms ++ " + " ++ decimal n ++ "]") ∧
      (0 < n → d.value.toInt = -(n : Int) →
        memText ⟨f, d, none⟩ = "[" ++ terms ++ " - " ++ decimal n ++ "]") := by
  rw [memText_of_form h.1, h.2]
  refine ⟨fun h0 => ?_, fun hn hv => ?_, fun hn hv => ?_⟩
  · rw [dispText_zero h0, String.append_empty]
  · rw [dispText_pos hn hv]
    simp only [String.append_assoc]
  · rw [dispText_neg hn hv]
    simp only [String.append_assoc]

theorem operandText_override (mode : OutputValueMode) (x : Instruction) (f : EAForm) (d : Disp) (g : SegmentType) :
    operandText mode x (.memory ⟨f, d, some g⟩) =
      sizeKeyword x ++ (segName g).name ++ ":" ++ memText ⟨f, d, none⟩ := by
  rw [operandText, memText_override]
  simp only [String.append_assoc]

/-! ### The size keyword -/

theorem any_isImmediate (l : List Operand) : l.any Operand.isImmediate = true ↔ ∃ i, .immediate i ∈ l := by
  rw [List.any_eq_true]
  constructor
  · rintro ⟨o, ho, himm⟩
    cases o with
    | immediate i => exact ⟨i, ho⟩
    | register | memory => cases himm
  · rintro ⟨i, hi⟩
    exact ⟨_, hi, rfl⟩

/-- The memory operand of `x` takes the keyword of a width that has one (47_renderer.md R303). -/
def Instruction.Sized (x : Instruction) : Prop :=
  x.type ∉ [InstructionType.LEA, .LDS, .LES, .CALLF, .JMPF, .ESC] ∧
    (x.operands.length = 1 ∨ x.type ∈ [InstructionType.ROL, .ROR, .RCL, .RCR, .SHL, .SHR, .SAR] ∨
      ∃ i, .immediate i ∈ x.operands)

theorem sized_iff (x : Instruction) : (!isAddressOnly x.type &&
    (x.operands.length == 1 || isShift x.type || x.operands.any Operand.isImmediate)) = true ↔ x.Sized := by
  rw [Bool.and_eq_true, Bool.or_eq_true, Bool.or_eq_true, any_isImmediate, or_assoc, Instruction.Sized]
  simp [isAddressOnly, isShift]

theorem sizeKeyword_of_byte {x : Instruction} (h : x.Sized) (hw : x.width = .byte) : sizeKeyword x = "BYTE " :=
  (if_pos ((sized_iff x).mpr h)).trans (by rw [hw])

theorem sizeKeyword_of_word {x : Instruction} (h : x.Sized) (hw : x.width = .word) : sizeKeyword x = "WORD " :=
  (if_pos ((sized_iff x).mpr h)).trans (by rw [hw])

theorem sizeKeyword_of_not_sized {x : Instruction} (h : ¬ x.Sized) : sizeKeyword x = "" :=
  if_neg (mt (sized_iff x).mp h)

theorem sizeKeyword_of_none {x : Instruction} (hw : x.width = .none) : sizeKeyword x = "" := by
  simp [sizeKeyword, hw]

theorem mnemonics : ∀ row ∈ mnemonicTable, row.1.name = row.2 := by decide

theorem registerNames : [RegisterType.AL, .CL, .DL, .BL, .AH, .CH, .DH, .BH, .AX, .CX, .DX, .BX, .SP, .BP, .SI, .DI,
    .ES, .CS, .SS, .DS].map RegisterType.name = ["AL", "CL", "DL", "BL", "AH", "CH", "DH", "BH", "AX", "CX", "DX", "BX",
    "SP", "BP", "SI", "DI", "ES", "CS", "SS", "DS"] := by
  decide

/-- Settles O60: each clause by the lemma of its text. -/
theorem operandTexts : Obligations.OperandTexts :=
  ⟨fun mode x => ⟨fun h => render_nil h mode, fun _ h => render_single h mode,
      fun _ _ h hpair => render_pair h hpair mode, fun _ _ h hg ho => render_farPair h hg ho mode, fun _ => rfl,
      fun _ => rfl, fun f d => ⟨rfl, operandText_override mode x f d⟩⟩,
    fun _ => ⟨immText_none, immText_relative, fun h => ⟨immText_unsigned h .asInteger, immText_unsigned h .asHex⟩,
      immText_constant⟩,
    memText_direct, fun row hrow => memText_by_sign (eaText_forms row hrow),
    fun _ => ⟨sizeKeyword_of_byte, sizeKeyword_of_word, sizeKeyword_of_none, sizeKeyword_of_not_sized⟩, registerNames,
    mnemonics⟩

end Sys2Proof.Machine

/-! The characters of a rendered line. -/

namespace Sys2Proof.Machine

/-! ### Texts within a line -/

/-- A character that a line may have: no line terminator, and of the lower-case letters only the `x` of `0x`
(47_renderer.md R292, R304). -/
def isLineChar (c : Char) : Bool := c != '\n' && c != '\r' && (!c.isLower || c == 'x')

/-- The text may stand inside a line. -/
def isLineText (t : String) : Bool := t.toList.all isLineChar

/-- The text may be a line: it may stand inside one, and it begins and ends, but not with a space. -/
def isPrinted (t : String) : Bool := isLineText t && t.toList.head?.any (· != ' ') && t.toList.getLast?.any (· != ' ')

theorem isPrinted_iff {t : String} : isPrinted t = true ↔
    isLineText t = true ∧ (∃ c, t.toList.head? = some c ∧ c ≠ ' ') ∧ ∃ c, t.toList.getLast? = some c ∧ c ≠ ' ' := by
  simp [isPrinted, Option.any_eq_true, and_assoc]

theorem isLineText_of_isPrinted {t : String} (h : isPrinted t = true) : isLineText t = true := (isPrinted_iff.mp h).1

theorem isLineText_append {a b : String} : isLineText (a ++ b) = (isLineText a && isLineText b) := by
  rw [isLineText, String.toList_append, List.all_append, isLineText, isLineText]

/-- Of two printed texts with a text of a line between them. -/
theorem isPrinted_between {a sep b : String} (ha : isPrinted a = true) (hsep : isLineText sep = true)
    (hb : isPrinted b = true) : isPrinted (a ++ sep ++ b) = true := by
  obtain ⟨hla, ⟨c, hc, hc'⟩, -⟩ := isPrinted_iff.mp ha
  obtain ⟨hlb, -, ⟨d, hd, hd'⟩⟩ := isPrinted_iff.mp hb
  refine isPrinted_iff.mpr ⟨?_, ⟨c, ?_, hc'⟩, ⟨d, ?_, hd'⟩⟩
  · rw [isLineText_append, isLineText_append, hla, hsep, hlb]
    rfl
  · rw [String.toList_append, String.toList_append, List.head?_append, List.head?_append, hc]
    rfl
  · rw [String.toList_append, List.getLast?_append, hd]
    rfl

theorem isPrinted_append {a b : String} (ha : isPrinted a = true) (hb : isPrinted b = true) :
    isPrinted (a ++ b) = true := by
  simpa only [String.append_empty] using isPrinted_between (sep := "") ha rfl hb

theorem isPrinted_joinWith {sep : String} (hsep : isLineText sep = true) {l : List String} (hne : l ≠ [])
    (h : ∀ t ∈ l, isPrinted t = true) : isPrinted (joinWith sep l) = true := by
  induction l with
  | nil => exact absurd rfl hne
  | cons a l ih =>
    cases l with
    | nil => exact h a (List.mem_singleton_self a)
    | cons b l =>
      exact isPrinted_between (h a (List.mem_cons_self ..)) hsep
        (ih (List.cons_ne_nil b l) fun t ht => h t (List.mem_cons_of_mem a ht))

/-- A text of such characters none of which is a space. -/
theorem isPrinted_of_no_space {t : String} (hne : t.toList ≠ [])
    (h : ∀ c ∈ t.toList, isLineChar c = true ∧ c ≠ ' ') : isPrinted t = true :=
  isPrinted_iff.mpr ⟨List.all_eq_true.mpr fun c hc => (h c hc).1,
    ⟨t.toList.head hne, List.head?_eq_some_head hne, (h _ (List.head_mem hne)).2⟩,
    ⟨t.toList.getLast hne, List.getLast?_eq_some_getLast hne, (h _ (List.getLast_mem hne)).2⟩⟩

/-! ### Numbers -/

theorem isLineChar_of_digit {c : Char} (h0 : '0' ≤ c) (h9 : c ≤ '9') : isLineChar c = true ∧ c ≠ ' ' := by
  have digits : ∀ n < 58, 48 ≤ n → isLineChar (Char.ofNat n) = true ∧ Char.ofNat n ≠ ' ' := by decide
  have h := digits c.toNat (Nat.lt_succ_of_le h9) h0
  rwa [Char.ofNat_toNat] at h

theorem isPrinted_decimal (n : Nat) : isPrinted (decimal n) = true :=
  isPrinted_of_no_space (by rw [toList_decimal]; exact Nat.toDigits_ne_nil) fun _ hc =>
    isLineChar_of_digit (digit_of_mem_decimal hc).1 (digit_of_mem_decimal hc).2

theorem isPrinted_signedDecimal (z : Int) : isPrinted (signedDecimal z) = true := by
  cases z with
  | ofNat n => exact isPrinted_decimal n
  | negSucc n => exact isPrinted_append (by decide) (isPrinted_decimal (n + 1))

theorem isPrinted_hexText (i : Imm) : isPrinted (hexText i) = true := by
  have digits : ∀ d, isLineChar (hexDigit d) = true ∧ hexDigit d ≠ ' ' := by decide
  refine isPrinted_of_no_space (by rw [toList_hexText]; exact List.cons_ne_nil _ _) fun c hc => ?_
  rw [toList_hexText, List.mem_cons, List.mem_cons, List.mem_map] at hc
  rcases hc with rfl | rfl | ⟨d, -, rfl⟩
  · decide
  · decide
  · exact digits d

/-! ### Operands -/

theorem isPrinted_unsignedText (mode : OutputValueMode) (i : Imm) : isPrinted (unsignedText mode i) = true := by
  cases mode with
  | asInteger => exact isPrinted_decimal _
  | asHex => exact isPrinted_hexText i

theorem isPrinted_immText (mode : OutputValueMode) (i : Imm) : isPrinted (immText mode i) = true := by
  unfold immText
  cases i.flag with
  | none =>
    cases mode with
    | asInteger => exact isPrinted_signedDecimal _
    | asHex => exact isPrinted_hexText i
  | relativeJumpDisplacement => exact isPrinted_signedDecimal _
  | escapeCode | implicitOne => exact isPrinted_decimal _
  | portNumber | interruptType | stackAdjust | farSegment | farOffset => exact isPrinted_unsignedText mode i

theorem isPrinted_registerName (r : RegisterType) : isPrinted r.name = true := by cases r <;> decide

theorem isPrinted_typeName (t : InstructionType) : isPrinted t.name = true := by cases t <;> decide

theorem isLineText_dispText (v : Word) : isLineText (dispText v) = true := by
  unfold dispText
  split_ifs
  · rfl
  · rw [isLineText_append, isLineText_of_isPrinted (isPrinted_signedDecimal _)]
    rfl
  · rw [isLineText_append, isLineText_of_isPrinted (isPrinted_signedDecimal _)]
    rfl

theorem isLineText_eaText (f : EAForm) : isLineText (eaText f) = true := by cases f <;> decide

/-- A memory operand begins with its override's name or a bracket, and ends with a bracket. -/
theorem isPrinted_memText (m : MemRef) : isPrinted (memText m) = true := by
  obtain ⟨f, d, seg⟩ := m
  have hplain : isPrinted (memText ⟨f, d, none⟩) = true := by
    by_cases hf : f = .DIRECT
    · rw [hf, memText_direct]
      exact isPrinted_between (by decide) (isLineText_of_isPrinted (isPrinted_decimal _)) (by decide)
    · rw [memText_of_form hf, String.append_assoc (s₁ := "[")]
      refine isPrinted_between (by decide) ?_ (by decide)
      rw [isLineText_append, isLineText_eaText, isLineText_dispText]
      rfl
  cases seg with
  | none => exact hplain
  | some g =>
    rw [memText_override]
    exact isPrinted_between (isPrinted_registerName _) (by decide) hplain

theorem isPrinted_sizeKeyword_append (x : Instruction) {t : String} (h : isPrinted t = true) :
    isPrinted (sizeKeyword x ++ t) = true := by
  by_cases hs : x.Sized
  · cases hw : x.width with
    | byte =>
      rw [sizeKeyword_of_byte hs hw]
      exact isPrinted_between (a := "BYTE") (sep := " ") (by decide) (by decide) h
    | word =>
      rw [sizeKeyword_of_word hs hw]
      exact isPrinted_between (a := "WORD") (sep := " ") (by decide) (by decide) h
    | none => rwa [sizeKeyword_of_none hw, String.empty_append]
  · rwa [sizeKeyword_of_not_sized hs, String.empty_append]

theorem isPrinted_operandText (mode : OutputValueMode) (x : Instruction) (o : Operand) :
    isPrinted (operandText mode x o) = true := by
  cases o with
  | register r => exact isPrinted_registerName r
  | immediate i => exact isPrinted_immText mode i
  | memory m => exact isPrinted_sizeKeyword_append x (isPrinted_memText m)

theorem isPrinted_operandsText (mode : OutputValueMode) {x : Instruction} (h : x.operands ≠ []) :
    isPrinted (operandsText mode x) = true := by
  by_cases hfar : ∃ g o, x.operands = [.immediate g, .immediate o] ∧ g.flag = .farSegment ∧ o.flag = .farOffset
  · obtain ⟨g, o, hx, hg, ho⟩ := hfar
    rw [operandsText_farPair hx hg ho]
    exact isPrinted_between (isPrinted_immText mode g) (by decide) (isPrinted_immText mode o)
  · rw [operandsText_of_not_farPair fun g o hx hflags => hfar ⟨g, o, hx, hflags⟩]
    refine isPrinted_joinWith (by decide) (mt List.map_eq_nil_iff.mp h) fun t ht => ?_
    obtain ⟨o, -, rfl⟩ := List.mem_map.mp ht
    exact isPrinted_operandText mode x o

theorem isPrinted_render (mode : OutputValueMode) (x : Instruction) : isPrinted (render mode x) = true := by
  cases hx : x.operands with
  | nil => rw [render_nil hx]; exact isPrinted_typeName x.type
  | cons a l =>
    rw [render_cons hx]
    exact isPrinted_between (isPrinted_typeName x.type) (by decide) (isPrinted_operandsText mode (by simp [hx]))

/-- Settles O58: the mnemonic and the operand texts are printed, and so are the texts joined. -/
theorem renderedLineCharacters : Obligations.RenderedLineCharacters := by
  intro mode x l
  obtain ⟨htext, ⟨c, hc, hc'⟩, ⟨d, hd, hd'⟩⟩ := isPrinted_iff.mp (isPrinted_render mode x)
  have hchar : ∀ a ∈ l, (a ≠ '\n' ∧ a ≠ '\r') ∧ (a.isLower = true → a = 'x') := by
    intro a ha
    have := List.all_eq_true.mp htext a ha
    simpa [isLineChar, imp_iff_not_or] using this
  refine ⟨fun hnil => ?_, fun h => (hchar _ h).1.1 rfl, fun h => (hchar _ h).1.2 rfl, fun h => ?_, fun h => ?_,
    fun a ha => (hchar a ha).2⟩
  · cases (congrArg List.head? hnil).symm.trans hc
  · exact hc' (Option.some_inj.mp (hc.symm.trans h))
  · exact hd' (Option.some_inj.mp (hd.symm.trans h))

end Sys2Proof.Machine

/-! How long an encoding is. -/

namespace Sys2Proof.Laws

theorem encode_length (i : Instr) : EncodedLength.Statement i := by
  cases i with
  | mov f => exact mov_length f
  | push f => exact push_length f
  | pop f => exact pop_length f
  | xchg f => exact xchg_length f
  | inPort f | outPort f => exact port_length _ _ f
  | test f => exact test_length f
  | call f => exact call_length f
  | jmp f => exact jmp_length f
  | add f | adc f | sub f | sbb f | cmp f | and f | or f | xor f => exact alu_length _ _ f
  | inc f | dec f => exact incDec_length _ _ f
  | callf f | jmpf f => exact far_length _ _ f
  | ret f | retf f => exact ret_length _ f
  | lea | lds | les | neg | mul | imul | div | idiv | not | shl | shr | sar | rol | ror | rcl | rcr | esc =>
    exact rm_length _ _ _
  | jo | jno | jb | jae | je | jne | jbe | ja | js | jns | jp | jnp | jl | jge | jle | jg | loop | loopz | loopnz | jcxz
  | int | aam | aad =>
    exact two_length _ _
  | prefixES | prefixCS | prefixSS | prefixDS
  | xlat | lahf | sahf | pushf | popf | aaa | daa | aas | das | cbw | cwd | rep | repne | movsb | movsw | cmpsb | cmpsw
  | scasb | scasw | lodsb | lodsw | stosb | stosw | int3 | into | iret | clc | cmc | stc | cld | std | cli | sti | hlt
  | wait | lock | nop =>
    exact one_length _

end Sys2Proof.Laws

/-! That a call is refused only outside the domain, and that it ends. -/

namespace Sys2Proof.Machine

open Laws (encode_length)

/-! ### A step in the domain -/

theorem decodeUnit_next (s : State) : ∃ t, decodeUnit exec s = .next t := by
  cases h : decode s.fetch with
  | ok x => exact (exec_next x.1 s).imp fun _ ht => (decodeUnit_of_ok h).trans ht
  | error e => exact ⟨_, decodeUnit_of_error h⟩

/-- WHAT A STEP IN THE DOMAIN ANSWERS: the fault of a failed call, the same state after a return, the text of an
exhausted stream, or the state after one unit. -/
theorem step_cases {s : State} (hadm : s.buf.admitted = true) (hpos : s.pos ≤ s.buf.size) :
    (∃ e, s.phase = .failed e ∧ step s = .fault (Fault.ofError e)) ∨ (s.returned = true ∧ step s = .next s) ∨
      (s.exhausted = true ∧ step s = .next s.returnText) ∨ (s.running ∧ ∃ t, step s = .next t) := by
  by_cases hfailed : ∃ e, s.phase = .failed e
  · obtain ⟨e, he⟩ := hfailed
    exact .inl ⟨e, he, step_of_failed hadm hpos he⟩
  have hfail : ∀ e, s.phase ≠ .failed e := not_exists.mp hfailed
  cases hret : s.returned with
  | true => exact .inr (.inl ⟨rfl, step_of_returned hadm hpos hfail hret⟩)
  | false =>
    cases hex : s.exhausted with
    | true => exact .inr (.inr (.inl ⟨rfl, step_of_exhausted hadm hpos hfail hret hex⟩))
    | false =>
      have hrun : s.running := ⟨hadm, hpos, hfail, hret, hex⟩
      exact .inr (.inr (.inr ⟨hrun, (decodeUnit_next s.ready).imp fun _ ht => (step_of_running hrun).trans ht⟩))

theorem step_ne_refused {s : State} (hadm : s.buf.admitted = true) (hpos : s.pos ≤ s.buf.size) (r : Refusal) :
    step s ≠ .refused r := by
  rcases step_cases hadm hpos with ⟨e, -, h⟩ | ⟨-, h⟩ | ⟨-, h⟩ | ⟨-, t, h⟩ <;> rw [h] <;> exact nofun

theorem step_refused_iff {s : State} :
    (∃ r, step s = .refused r) ↔ s.buf.admitted = false ∨ s.buf.size < s.pos := by
  cases hadm : s.buf.admitted with
  | false => exact ⟨fun _ => .inl rfl, fun _ => ⟨_, step_of_not_admitted hadm⟩⟩
  | true =>
    constructor
    · rintro ⟨r, hr⟩
      exact .inr (not_le.mp fun hpos => step_ne_refused hadm hpos r hr)
    · rintro (h | h)
      · cases h
      · exact ⟨_, step_of_past_end hadm h⟩

theorem admitted_eq_false_iff {B : Memory} : B.admitted = false ↔ 2 ^ 32 - 1 < B.size :=
  decide_eq_false_iff_not.trans not_le

/-- At the end of the buffer a unit has no byte. -/
theorem decodeUnit_of_end {s : State} (h : s.pos = s.buf.size) :
    decodeUnit exec s = .next (takeError (endOfStreamError s.p0 s.pos) s) := by
  have hfetch := fetch_of_end h
  rw [decodeUnit_of_error (e := .endOfStream 0) (by rw [hfetch]; rfl), hfetch, phasesBefore, through_nil]
  rfl

/-- Settles O21: a step refuses exactly outside the domain, and a call at the end of the buffer has no byte to
decode. -/
theorem refusedExactlyOutsideDomain : Obligations.RefusedExactlyOutsideDomain := by
  intro entryPoint B p0 label mode
  refine ⟨step_refused_iff.trans (or_congr_left admitted_eq_false_iff), fun hsize => ?_⟩
  have hcall := ofCall_decoding label mode (decide_eq_true hsize : B.admitted = true) (le_refl B.size)
  exact hcall.step_eq.trans (decodeUnit_of_end rfl)

/-! ### A call ends -/

/-- A step that decodes a unit fails the call or moves the cursor. -/
theorem step_advances {s t : State} (hrun : s.running) (h : step s = .next t) :
    (∃ e, t.phase = .failed e) ∨ s.pos < t.pos := by
  rw [step_of_running hrun] at h
  cases hd : decode s.ready.fetch with
  | error e =>
    cases (decodeUnit_of_error hd).symm.trans h
    exact .inl ⟨_, rfl⟩
  | ok x =>
    obtain ⟨u, hu, hreads⟩ := exec_readsOnly x.1 s.ready
    cases ((decodeUnit_of_ok hd).trans hu).symm.trans h
    refine or_iff_not_imp_left.mpr fun hfail => ?_
    have hpos := (hreads.of_not_failed (not_exists.mp hfail)).2
    have hone := (encode_length x.1).1
    rw [ready_pos] at hpos
    omega

/-- The entry point has returned, or the call has failed. -/
def State.Ended (s : State) : Prop := s.returned = true ∨ ∃ e, s.phase = .failed e

theorem returnText_returned {s : State} (h : s.exhausted = true) : s.returnText.returned = true :=
  State.returned_of_getAssembly (s := s.returnText) (State.exhausted_iff.mp h).1

/-- A call ends within as many steps as bytes are left, and one more (60_exceptions.md R334). -/
theorem State.Inv.ends {s : State} (h : s.Inv) :
    ∃ k t, k ≤ s.buf.size - s.pos + 1 ∧ Sys2Proof.core.run k s = .next t ∧ t.Ended := by
  induction hn : s.buf.size - s.pos using Nat.strong_induction_on generalizing s with
  | _ n ih =>
    rcases step_cases h.admitted h.pos_le with ⟨e, he, -⟩ | ⟨hret, -⟩ | ⟨hex, hstep⟩ | ⟨hrun, t, hstep⟩
    · exact ⟨0, s, Nat.zero_le _, run_zero s, .inr ⟨e, he⟩⟩
    · exact ⟨0, s, Nat.zero_le _, run_zero s, .inl hret⟩
    · exact ⟨1, s.returnText, Nat.le_add_left .., (run_succ hstep 0).trans (run_zero _),
        .inl (returnText_returned hex)⟩
    · rcases step_advances hrun hstep with hfail | hlt
      · exact ⟨1, t, Nat.le_add_left .., (run_succ hstep 0).trans (run_zero t), .inr hfail⟩
      · have ht := stepPreservesInvariant s t h hstep
        have hle := ht.pos_le
        have hbuf := (step_sameInputs hstep).1
        obtain ⟨k, u, hk, hrunk, hu⟩ := ih (t.buf.size - t.pos) (by rw [hbuf] at hle ⊢; omega) ht rfl
        exact ⟨k + 1, u, by rw [hbuf] at hle hk; omega, (run_succ hstep k).trans hrunk, hu⟩

/-- Settles O8: by induction on the bytes left, as every step of the invariant that decodes a unit and does not fail
reads one or more. -/
theorem callEnds : Obligations.CallEnds := fun _ h => h.ends

end Sys2Proof.Machine

/-! Which field a truncated instruction is cut in. -/

namespace Sys2Proof.Machine

open Laws (encode_length)

/-! ### The fields that the algorithm reads -/

/-- The algorithm reads a field of `n` bytes at offset `q`: it goes on after it, or the field is not all in the buffer
and it takes the end of the stream there (20_memory.md R54). -/
def ReadsField {α : Type} (B : Memory) (p0 q n : Nat) (a : Except Error (α × Nat)) : Prop :=
  (∃ x, a = .ok (x, q + n) ∧ (q ≤ B.size → q + n ≤ B.size)) ∨
    (a = .error (endOfStreamError p0 q) ∧ B.size < q + n)

section
variable {α β : Type} {B : Memory} {p0 q n : Nat}

theorem readsField_none (x : α) : ReadsField B p0 q 0 (.ok (x, q)) := .inl ⟨x, rfl, id⟩

theorem readByteAt_readsField : ReadsField B p0 q 1 (readByteAt B p0 q) := by
  rw [readByteAt]
  cases hread : B.read q with
  | some b => exact .inl ⟨b, rfl, fun _ => read_eq_some_iff.mp ⟨b, hread⟩⟩
  | none => exact .inr ⟨rfl, Nat.lt_succ_of_le (by simpa [Memory.read] using hread)⟩

theorem readWordAt_readsField : ReadsField B p0 q 2 (readWordAt B p0 q) := by
  by_cases hroom : q + 1 < B.size
  · obtain ⟨lo, hlo⟩ := read_eq_some_iff.mpr (Nat.lt_of_succ_lt hroom)
    obtain ⟨hi, hhi⟩ := read_eq_some_iff.mpr hroom
    exact .inl ⟨wordOfBytes lo hi, by rw [readWordAt, hlo, hhi], fun _ => hroom⟩
  · refine .inr ⟨?_, by omega⟩
    rw [readWordAt, Memory.read_eq_none (not_lt.mp hroom)]
    cases B.read q <;> rfl

/-- A field that the algorithm goes on from by no more than a value made of what stands in it. -/
theorem ReadsField.bind_ok {a : Except Error (α × Nat)} (h : ReadsField B p0 q n a)
    {f : α × Nat → Except Error (β × Nat)} (hf : ∀ x, ∃ y, f (x, q + n) = .ok (y, q + n)) :
    ReadsField B p0 q n (a >>= f) := by
  rcases h with ⟨x, rfl, hle⟩ | ⟨rfl, hlt⟩
  · obtain ⟨y, hy⟩ := hf x
    exact .inl ⟨y, hy, hle⟩
  · exact .inr ⟨rfl, hlt⟩

theorem readByteImm_readsField (flag : ImmediateFlag) : ReadsField B p0 q 1 (readByteImm B p0 flag q) :=
  readByteAt_readsField.bind_ok fun _ => ⟨_, rfl⟩

theorem readWordImm_readsField (flag : ImmediateFlag) : ReadsField B p0 q 2 (readWordImm B p0 flag q) :=
  readWordAt_readsField.bind_ok fun _ => ⟨_, rfl⟩

theorem readImm_readsField (w : OpWidth) : ∃ n ≤ 2, ReadsField B p0 q n (readImm B p0 w q) := by
  cases w with
  | byte => exact ⟨1, by decide, readByteAt_readsField.bind_ok fun _ => ⟨_, rfl⟩⟩
  | word => exact ⟨2, le_refl 2, readWordAt_readsField.bind_ok fun _ => ⟨_, rfl⟩⟩

/-- The displacement that follows a ModRM byte (30_encoding.md R75, R77). -/
theorem resolveRM_readsField (seg : Option SegmentType) (m : Byte) (w : OpWidth) :
    ReadsField B p0 q (dispBytes m) (resolveRM B p0 seg (modField m) (rmField m) w q) := by
  rw [resolveRM, dispBytes]
  by_cases h3 : modField m = 3
  · rw [if_pos h3, if_pos h3]
    exact readsField_none _
  by_cases h0 : modField m = 0
  · by_cases h6 : rmField m = 6
    · simp only [h0, h6, and_self, if_true]
      exact readWordAt_readsField.bind_ok fun _ => ⟨_, rfl⟩
    · simp only [h0, h6, and_false, if_true, if_false]
      exact readsField_none _
  by_cases h1 : modField m = 1
  · simp only [h1, if_true]
    exact readByteAt_readsField.bind_ok fun _ => ⟨_, rfl⟩
  · simp only [h3, h0, h1, false_and, if_false]
    exact readWordAt_readsField.bind_ok fun _ => ⟨_, rfl⟩

/-- The immediate that follows the displacement, if the recipe has one (30_encoding.md R80). -/
theorem buildModRM_readsField (recipe : Recipe) (w : OpWidth) (E : Operand) (reg : BitVec 3) (op : Byte) :
    ∃ n ≤ 2, ReadsField B p0 q n (buildModRM B p0 recipe w E reg op q) := by
  cases recipe with
  | eI => exact (readImm_readsField w).imp fun _ => And.imp_right fun h => h.bind_ok fun _ => ⟨_, rfl⟩
  | eIs => exact ⟨1, by decide, readByteAt_readsField.bind_ok fun _ => ⟨_, rfl⟩⟩
  | _ => exact ⟨0, by decide, readsField_none _⟩

/-- The bytes after the opcode of a recipe with no ModRM byte; a far pointer has a second word, and the byte of AAM and
AAD may be refused. -/
theorem buildPlain_readsField {recipe : Recipe} (hfar : recipe ≠ .far) (hbase : recipe ≠ .base10) (w : OpWidth)
    (seg : Option SegmentType) (op : Byte) : ∃ n ≤ 2, ReadsField B p0 q n (buildPlain B p0 recipe w seg op q) := by
  cases recipe with
  | far => exact absurd rfl hfar
  | base10 => exact absurd rfl hbase
  | accI => exact (readImm_readsField w).imp fun _ => And.imp_right fun h => h.bind_ok fun _ => ⟨_, rfl⟩
  | reg8I | rel8 | accPort | portAcc | ibInt =>
    exact ⟨1, by decide, (readByteImm_readsField _).bind_ok fun _ => ⟨_, rfl⟩⟩
  | reg16I | rel16 | iwStack => exact ⟨2, le_refl 2, (readWordImm_readsField _).bind_ok fun _ => ⟨_, rfl⟩⟩
  | accMoffs | moffsAcc => exact ⟨2, le_refl 2, readWordAt_readsField.bind_ok fun _ => ⟨_, rfl⟩⟩
  | _ => exact ⟨0, by decide, readsField_none _⟩

end

/-! ### Where the algorithm is cut -/

/-- Where the algorithm takes the end of the stream, it is at the field that begins at offset `q`, of which the buffer
holds one byte at most. -/
def EndsAt {α : Type} (B : Memory) (q : Nat) (a : Except Error α) : Prop :=
  ∀ e, a = .error e → e.kind = .unexpectedEndOfStream → e.offset = q ∧ B.size ≤ q + 1

/-- The field at `q`, or the one after a word there that the buffer holds. -/
def cutWord (B : Memory) (q : Nat) : Nat := if B.size ≤ q + 1 then q else q + 2

section
variable {α β : Type} {B : Memory} {p0 q n : Nat}

theorem endsAt_ok (x : α) : EndsAt B q (.ok x) := fun _ h => nomatch h

theorem endsAt_endOfStream (h : B.size ≤ q + 1) : EndsAt (α := α) B q (.error (endOfStreamError p0 q)) := by
  rintro _ ⟨⟩ -
  exact ⟨rfl, h⟩

/-- Another error is no end of the stream. -/
theorem endsAt_of_kind_ne {e : Error} (h : e.kind ≠ .unexpectedEndOfStream) : EndsAt (α := α) B q (.error e) := by
  rintro _ ⟨⟩ hk
  exact absurd hk h

theorem EndsAt.bind {a : Except Error α} {f : α → Except Error β} (ha : EndsAt B q a)
    (hf : ∀ x, a = .ok x → EndsAt B q (f x)) : EndsAt B q (a >>= f) := by
  cases a with
  | error d => exact fun e h => ha e (by cases h; rfl)
  | ok x => exact hf x rfl

theorem ReadsField.endsAt {a : Except Error (α × Nat)} (h : ReadsField B p0 q n a) (hn : n ≤ 2) : EndsAt B q a := by
  rcases h with ⟨x, rfl, -⟩ | ⟨rfl, hlt⟩
  · exact endsAt_ok _
  · exact endsAt_endOfStream (by omega)

theorem ReadsField.endsAt_cutWord {a : Except Error (α × Nat)} (h : ReadsField B p0 q n a) (hn : n ≤ 2) :
    EndsAt B (cutWord B q) a := by
  rcases h with ⟨x, rfl, -⟩ | ⟨rfl, hlt⟩
  · exact endsAt_ok _
  · have hcut : B.size ≤ q + 1 := by omega
    rw [cutWord, if_pos hcut]
    exact endsAt_endOfStream hcut

/-- A recipe without a ModRM byte is cut in its first field, or in the segment word of a far pointer. -/
theorem buildPlain_endsAt (hq : q ≤ B.size) (recipe : Recipe) (w : OpWidth) (seg : Option SegmentType) (op : Byte) :
    EndsAt B (cutWord B q) (buildPlain B p0 recipe w seg op q) := by
  by_cases hbase : recipe = .base10
  · subst hbase
    refine (readByteAt_readsField.endsAt_cutWord (by decide)).bind fun (b, _) _ => ?_
    dsimp only
    split
    · exact endsAt_ok _
    · exact endsAt_of_kind_ne nofun
  by_cases hfar : recipe = .far
  · subst hfar
    have hoff := readWordImm_readsField (B := B) (p0 := p0) (q := q) .farOffset
    refine (hoff.endsAt_cutWord (le_refl 2)).bind fun x hx => ?_
    rcases hoff with ⟨y, hy, hle⟩ | ⟨hy, -⟩
    · cases hy.symm.trans hx
      rw [cutWord, if_neg (by have := hle hq; omega)]
      exact ((readWordImm_readsField .farSegment).endsAt (le_refl 2)).bind fun _ _ => endsAt_ok _
    · cases hy.symm.trans hx
  obtain ⟨n, hn, hfield⟩ := buildPlain_readsField (B := B) (p0 := p0) (q := q) hfar hbase w seg op
  exact hfield.endsAt_cutWord hn

theorem dispBytes_le (m : Byte) : dispBytes m ≤ 2 := by
  unfold dispBytes
  split_ifs <;> decide

/-- A recipe with a ModRM byte `m` is cut in the displacement that follows it, or in the immediate after that. -/
theorem finishModRM_endsAt (hq : q ≤ B.size) (seg : Option SegmentType) (op m : Byte) (type : InstructionType)
    (width : DataWidth) (recipe : Recipe) :
    EndsAt B (if B.size < q + dispBytes m then q else q + dispBytes m)
      (finishModRM B p0 seg op m type width recipe q) := by
  cases hbad : badFields recipe (modField m) (regField m) with
  | true =>
    rw [finishModRM_bad hbad]
    exact endsAt_of_kind_ne nofun
  | false =>
    rw [finishModRM_eq hbad]
    rcases resolveRM_readsField (B := B) (p0 := p0) (q := q) seg m (rmWidth recipe width) with
      ⟨E, hE, hle⟩ | ⟨hE, hlt⟩ <;> rw [hE]
    · rw [if_neg (not_lt.mpr (hle hq))]
      obtain ⟨n, hn, hfield⟩ := buildModRM_readsField (B := B) (p0 := p0) (q := q + dispBytes m) recipe
        width.opWidth E (regField m) op
      exact (hfield.endsAt hn).bind fun _ _ => endsAt_ok _
    · rw [if_pos hlt]
      exact endsAt_endOfStream (by have := dispBytes_le m; omega)

end

/-! ### Where the bytes end -/

theorem phasesBefore_cutAt (bytes : List Byte) :
    phasesBefore bytes (.endOfStream (cutAt bytes).2) = (cutAt bytes).1 := by
  match bytes with
  | [] | [_] => rfl
  | op :: m :: rest =>
    cases hmodrm : (primary op).hasModRM with
    | false => simp [phasesBefore, cutAt, hmodrm]
    | true =>
      by_cases hd : dispBytes m = 0
      · simp [phasesBefore, cutAt, hmodrm, hd]
      · by_cases hcut : rest.length < dispBytes m <;> simp [phasesBefore, cutAt, hmodrm, hd, hcut]

theorem cutAt_of_modrm {op m : Byte} {rest : List Byte} (h : (primary op).hasModRM = true) :
    (cutAt (op :: m :: rest)).2 = if rest.length < dispBytes m then 2 else 2 + dispBytes m := by
  rw [cutAt, if_pos h]
  by_cases hd : dispBytes m = 0
  · simp [hd]
  · rw [if_neg hd]
    split <;> rfl

theorem cutAt_of_plain {op m : Byte} {rest : List Byte} (h : (primary op).hasModRM = false) :
    (cutAt (op :: m :: rest)).2 = if rest = [] then 1 else 3 := by
  rw [cutAt, h]
  rfl

section
variable {B : Memory} {p0 q : Nat} {op m : Byte} {rest : List Byte} {seg : Option SegmentType} {type : InstructionType}
  {width : DataWidth} {recipe : Recipe}

/-- Where the buffer ends after the opcode byte, the algorithm is cut there. -/
theorem decodeEntry_endsAt_opcode (hend : q = B.size) (te : TableEntry) :
    EndsAt B q (decodeEntry B p0 seg op q te) := by
  have hread : readByteAt B p0 q = .error (endOfStreamError p0 q) := by
    rw [readByteAt, Memory.read_eq_none hend.ge]
  have hlt : B.size ≤ q + 1 := hend ▸ Nat.le_succ q
  cases te with
  | unknown | segPrefix => exact endsAt_of_kind_ne nofun
  | direct type width recipe =>
    cases hrecipe : recipe.hasModRM with
    | true =>
      rw [decodeEntry, if_pos hrecipe, hread]
      exact endsAt_endOfStream hlt
    | false =>
      have hplain := buildPlain_endsAt (p0 := p0) hend.le recipe width.opWidth seg op
      rw [cutWord, if_pos hlt] at hplain
      rw [decodeEntry_plain hrecipe]
      exact hplain.bind fun _ _ => endsAt_ok _
  | group g width column =>
    rw [decodeEntry, hread]
    exact endsAt_endOfStream hlt

theorem finishModRM_endsAt_cutAt (hend : q + (op :: m :: rest).length = B.size)
    (hmodrm : (primary op).hasModRM = true) :
    EndsAt B (q + (cutAt (op :: m :: rest)).2) (finishModRM B p0 seg op m type width recipe (q + 2)) := by
  rw [List.length_cons, List.length_cons] at hend
  have h := finishModRM_endsAt (p0 := p0) (q := q + 2) (B := B) (by omega) seg op m type width recipe
  have hcut : B.size < q + 2 + dispBytes m ↔ rest.length < dispBytes m := by omega
  rw [cutAt_of_modrm hmodrm, add_ite, ← Nat.add_assoc]
  simpa only [hcut] using h

theorem buildPlain_endsAt_cutAt (hend : q + (op :: m :: rest).length = B.size)
    (hmodrm : (primary op).hasModRM = false) (w : OpWidth) :
    EndsAt B (q + (cutAt (op :: m :: rest)).2) (buildPlain B p0 recipe w seg op (q + 1)) := by
  rw [List.length_cons, List.length_cons] at hend
  have h := buildPlain_endsAt (p0 := p0) (q := q + 1) (B := B) (by omega) recipe w seg op
  have hcut : B.size ≤ q + 1 + 1 ↔ rest = [] := by rw [← List.length_eq_zero_iff]; omega
  rw [cutAt_of_plain hmodrm, add_ite]
  simpa only [cutWord, hcut] using h

/-- Where the buffer ends after these bytes, from an opcode byte on, the algorithm is cut where `cutAt` says. -/
theorem decodeEntry_endsAt {bs : List Byte} (hholds : B.Holds q (op :: bs)) (hend : q + (op :: bs).length = B.size) :
    EndsAt B (q + (cutAt (op :: bs)).2) (decodeEntry B p0 seg op (q + 1) (primary op)) := by
  cases bs with
  | nil => exact decodeEntry_endsAt_opcode hend _
  | cons m rest =>
    have hm : B.read (q + 1) = some m := hholds.2.1
    cases hte : primary op with
    | unknown | segPrefix => exact endsAt_of_kind_ne nofun
    | direct type width recipe =>
      cases hrecipe : recipe.hasModRM with
      | true =>
        rw [decodeEntry_modrm hrecipe hm]
        exact finishModRM_endsAt_cutAt hend (by rw [hte]; exact hrecipe)
      | false =>
        rw [decodeEntry_plain hrecipe]
        exact (buildPlain_endsAt_cutAt hend (by rw [hte]; exact hrecipe) _).bind fun _ _ => endsAt_ok _
    | group g width column =>
      rw [decodeEntry_group hm]
      split
      · exact endsAt_of_kind_ne nofun
      · exact finishModRM_endsAt_cutAt hend (by rw [hte]; rfl)

end

/-! ### What a truncated instruction decodes to -/

/-- Fewer bytes than an instruction's encoding do not decode. -/
theorem decode_take_error {i : Instr} {n : Nat} (hwf : i.wellFormed = true) (hn : n < (encode i).length) :
    ∃ e, decode ((encode i).take n) = .error e := by
  cases hd : decode ((encode i).take n) with
  | error e => exact ⟨e, rfl⟩
  | ok x =>
    obtain ⟨j, rest⟩ := x
    obtain ⟨hj, htake⟩ := decode_ok hd
    have hfull := decodeOfEncode j (rest ++ (encode i).drop n) hj
    rw [← List.append_assoc, ← htake, List.take_append_drop, ← List.append_nil (encode i),
      decodeOfEncode i [] hwf, List.append_nil] at hfull
    obtain ⟨-, hdrop⟩ := List.append_eq_nil_iff.mp (congrArg Prod.snd (Except.ok.inj hfull)).symm
    exact absurd (List.drop_eq_nil_iff.mp hdrop) (not_le.mpr hn)

theorem Memory.holds_of_read {B : Memory} {q : Nat} {bs : List Byte}
    (h : ∀ k < bs.length, B.read (q + k) = bs[k]?) : B.Holds q bs := by
  induction bs generalizing q with
  | nil => trivial
  | cons b bs ih =>
    refine ⟨h 0 (Nat.succ_pos _), ih fun k hk => ?_⟩
    rw [Nat.add_assoc, Nat.add_comm 1]
    exact h (k + 1) (Nat.succ_lt_succ hk)

theorem Memory.holds_ofBytes (bs : List Byte) : (Memory.ofBytes bs).Holds 0 bs :=
  Memory.holds_of_read fun k _ => by rw [Nat.zero_add, read_ofBytes]

/-- The byte after a run that the buffer ends with does not exist. -/
theorem Memory.Holds.read_eq_head? {B : Memory} {q : Nat} {bs : List Byte} (h : B.Holds q bs)
    (hend : q + bs.length = B.size) : B.read q = bs.head? := by
  cases bs with
  | nil => exact Memory.read_eq_none hend.ge
  | cons b bs => exact h.1

/-- The table entry of an instruction's opcode does not refuse its second byte: on a buffer of its encoding the
algorithm gives an instruction. -/
theorem refusal_of_encode {i : Instr} {op : Byte} {bs : List Byte} (hwf : i.wellFormed = true)
    (henc : encode i = op :: bs) (hop : op ∉ segPrefixBytes) : (primary op).refusal op bs.head? = none := by
  have hread (k : Nat) : (Memory.ofBytes (encode i)).read k = (op :: bs)[k]? := by rw [read_ofBytes, henc]
  obtain ⟨rest, hfetch⟩ := fetch_of_holds (s := .onBuffer (.ofBytes (encode i)) 0 0 none)
    (Memory.holds_ofBytes (encode i)) (Nat.zero_le _) (encode_length i).2
  have h := decode_answers (s := .onBuffer (.ofBytes (encode i)) 0 0 none) (Nat.zero_le _) (hread 0) hop
  rw [hfetch, decodeOfEncode i rest hwf] at h
  obtain ⟨x, -, hx, -⟩ := h
  refine Option.eq_none_iff_forall_ne_some.mpr fun e he => ?_
  have herror := decodeEntry_of_refusal (B := .ofBytes (encode i)) (p0 := 0) (pos := 0) (seg := none)
    primary_group_recipe (by rw [hread, ← he]; cases bs <;> rfl)
  cases herror.symm.trans hx

theorem refusal_of_no_second {op : Byte} {te : TableEntry} {second : Option Byte} (h : te.refusal op second = none) :
    te.refusal op none = none := by
  cases te with
  | unknown => exact h
  | segPrefix | direct | group => rfl

section
variable {s : State} {i : Instr} {n : Nat}

/-- Where the fetched bytes are fewer than the instruction's, the buffer ends with them. -/
theorem fetch_ends (hpos : s.pos ≤ s.buf.size) (hn : n < (encode i).length) (hfetch : s.fetch = (encode i).take n) :
    s.pos + s.fetch.length = s.buf.size := by
  have hlen : s.fetch.length = n := by rw [hfetch, List.length_take_of_le hn.le]
  have hmax : n < maxInstrBytes := hn.trans_le (encode_length i).2
  rw [fetch_length] at hlen ⊢
  omega

/-- A TRUNCATED INSTRUCTION is cut at the field that `cutAt` gives, of which the buffer holds one byte at most. -/
theorem decode_truncated (hpos : s.pos ≤ s.buf.size) (hwf : i.wellFormed = true) (hn : n < (encode i).length)
    (hfetch : s.fetch = (encode i).take n) :
    decode s.fetch = .error (.endOfStream (cutAt s.fetch).2) ∧ s.buf.size ≤ s.pos + (cutAt s.fetch).2 + 1 := by
  have hend := fetch_ends hpos hn hfetch
  have hholds := holds_fetch hpos
  obtain ⟨e, he⟩ := decode_take_error hwf hn
  rw [← hfetch] at he
  cases hbytes : s.fetch with
  | nil =>
    rw [hbytes] at hend
    exact ⟨rfl, hend ▸ Nat.le_succ _⟩
  | cons op bs =>
    rw [hbytes] at hholds hend
    have hop : op ∉ segPrefixBytes := by
      intro hop
      obtain ⟨g, rfl⟩ := mem_segPrefixBytes.mp hop
      obtain ⟨j, -, hj, -⟩ := decode_segPrefixByte g bs
      rw [hbytes, hj] at he
      cases he
    have henc : encode i = op :: (bs ++ (encode i).drop n) := by
      rw [← List.cons_append, ← hbytes, hfetch, List.take_append_drop]
    have hrefusal : (primary op).refusal op (s.buf.read (s.pos + 1)) = none := by
      rw [hholds.2.read_eq_head? (by rw [List.length_cons] at hend; omega)]
      have hfull := refusal_of_encode hwf henc hop
      cases bs with
      | nil => exact refusal_of_no_second hfull
      | cons m rest => exact hfull
    have hanswers := decode_answers hpos hholds.1 hop
    rw [he] at hanswers
    have hkind := decodeEntry_endsOnly (primary_ne_segPrefix hop) hrefusal _ hanswers
    obtain ⟨hoffset, hle⟩ := decodeEntry_endsAt hholds hend _ hanswers hkind
    cases e with
    | unknownOpcode | invalidOperand => cases hkind
    | endOfStream k =>
      have hk : k = (cutAt (op :: bs)).2 := Nat.add_left_cancel hoffset
      exact ⟨by rw [← hbytes, he, hbytes, hk], hle⟩

end

/-- Settles O19: the decoder and the algorithm agree on the bytes at hand, and the algorithm is cut in the field that
`cutAt` gives. -/
theorem truncatedStreamTakesEndOfStream : Obligations.TruncatedStreamTakesEndOfStream := by
  intro s i n hrun hwf hn hfetch q
  obtain ⟨-, hpos, -, -, -⟩ := id hrun
  obtain ⟨hdecode, hle⟩ := decode_truncated hpos hwf hn hfetch
  refine ⟨?_, ?_⟩
  · have hstep := decodeUnit_of_error (s := s.ready) (by rw [ready_fetch]; exact hdecode)
    rw [← step_of_running hrun, ready_fetch, ready_pos, phasesBefore_cutAt] at hstep
    exact hstep
  · have hextent : (cutAt s.fetch).2 ≤ s.fetch.length := extent_le_of_decode_error hdecode
    have hend := fetch_ends hpos hn hfetch
    omega

end Sys2Proof.Machine

/-! Reset, and what a step and a decode do not depend on: the unwritten latches, and the bytes after an error. -/

namespace Sys2Proof.Machine

/-! ### States that differ in the latches -/

section
variable {s t : State}

/-- What does not look at the latches is the same of both states. -/
theorem State.sameButLatches.agree {α : Type} {f : State → α} (h : s.sameButLatches t)
    (hf : ∀ u, f u.clearLatches = f u) : f s = f t := by
  rw [← hf s, ← hf t, h.1]

theorem State.sameButLatches.buf (h : s.sameButLatches t) : s.buf = t.buf := h.agree clearLatches_buf

theorem State.sameButLatches.pos (h : s.sameButLatches t) : s.pos = t.pos := h.agree clearLatches_pos

theorem State.sameButLatches.p0 (h : s.sameButLatches t) : s.p0 = t.p0 := h.agree clearLatches_p0

/-- An operation that keeps the segment override, and to whose result clearing the latches before it makes no difference
but in the latches, keeps the relation. -/
theorem State.sameButLatches.map {g : State → State} (h : s.sameButLatches t)
    (hg : ∀ u, (g u).clearLatches = (g u.clearLatches).clearLatches ∧ (g u).seg = u.seg) :
    (g s).sameButLatches (g t) := by
  constructor
  · rw [(hg s).1, (hg t).1, h.1]
  · rw [(hg s).2, (hg t).2, h.2]

/-- Taking an error drops the latches, so it ends in one state from both. -/
theorem State.sameButLatches.takeError_eq (h : s.sameButLatches t) (e : Error) : takeError e s = takeError e t :=
  h.agree fun _ => rfl

/-- Beginning a call drops them as well. -/
theorem State.sameButLatches.beginCall_eq (h : s.sameButLatches t) : s.beginCall = t.beginCall :=
  h.agree fun _ => rfl

theorem sameButLatches_of_eq (h : s = t) : s.sameButLatches t := h ▸ ⟨rfl, rfl⟩

end

/-! ### The parts of a decode -/

/-- A part ends the same way in states related by `R`, in states again related. -/
def Part.Respects (R : State → State → Prop) (p : Part) : Prop :=
  ∀ s t, R s t →
    (∃ u v, p s = .ok u ∧ p t = .ok v ∧ R u v) ∨ ∃ e u v, p s = .error (e, u) ∧ p t = .error (e, v) ∧ R u v

/-- Parts that respect a relation, one after another, respect it. -/
theorem runParts_respects {R : State → State → Prop} {ps : List Part} (h : ∀ p ∈ ps, Part.Respects R p) :
    Part.Respects R (runParts ps) := by
  induction ps with
  | nil => exact fun s t hst => .inl ⟨s, t, rfl, rfl, hst⟩
  | cons p ps ih =>
    intro s t hst
    rcases h p (List.mem_cons_self ..) s t hst with ⟨u, v, hu, hv, huv⟩ | ⟨e, u, v, hu, hv, huv⟩
    · rw [runParts_cons_ok hu, runParts_cons_ok hv]
      exact ih (fun q hq => h q (List.mem_cons_of_mem _ hq)) u v huv
    · exact .inr ⟨e, u, v, runParts_cons_error hu, runParts_cons_error hv, huv⟩

/-- A read writes latches, or what both states have. -/
theorem reading_respects {n : Nat} {before : List Phase} {next : State → Nat → State}
    (h : ∀ pos u, (next u pos).clearLatches = (next u.clearLatches pos).clearLatches ∧ (next u pos).seg = u.seg) :
    Part.Respects State.sameButLatches fun s => reading n (s.through before) (next s) := by
  intro s t hst
  have hbefore := hst.map (g := State.through before) fun _ => ⟨rfl, rfl⟩
  by_cases hr : s.pos + n ≤ s.buf.size
  · have hr' : t.pos + n ≤ t.buf.size := hst.buf ▸ hst.pos ▸ hr
    refine .inl ⟨_, _, reading_ok (s := s.through before) _ hr, reading_ok (s := t.through before) _ hr', ?_⟩
    rw [hbefore.pos]
    exact hst.map (h _)
  · have hr' : ¬ t.pos + n ≤ t.buf.size := hst.buf ▸ hst.pos ▸ hr
    refine .inr ⟨_, _, _, reading_error (s := s.through before) _ hr, ?_, hbefore⟩
    rw [hbefore.p0, hbefore.pos]
    exact reading_error (s := t.through before) _ hr'

theorem reading_respects_nil {n : Nat} {next : State → Nat → State}
    (h : ∀ pos u, (next u pos).clearLatches = (next u.clearLatches pos).clearLatches ∧ (next u pos).seg = u.seg) :
    Part.Respects State.sameButLatches fun s => reading n s (next s) := by
  simpa only [through_nil] using reading_respects (before := []) h

theorem displacementField_respects (n : Nat) (d : Disp) :
    Part.Respects State.sameButLatches (displacementField n d) :=
  reading_respects_nil fun _ _ => ⟨rfl, rfl⟩

theorem displacementRead_respects (e : RM) : Part.Respects State.sameButLatches (displacementRead e) := by
  match e with
  | .reg _ => exact fun s t h => .inl ⟨s, t, rfl, rfl, h⟩
  | .mem (.noDisp _) =>
    exact fun s t h => .inl ⟨_, _, rfl, rfl, h.map (g := fun u => { u with disp := .noDisp }) fun _ => ⟨rfl, rfl⟩⟩
  | .mem (.direct _) | .mem (.disp16 _ _) => exact displacementField_respects 2 _
  | .mem (.disp8 _ _) => exact displacementField_respects 1 _

theorem DecodeParts.respects {ps : List Part} (h : DecodeParts ps) :
    Part.Respects State.sameButLatches (runParts ps) := by
  have opcode (op : Byte) : Part.Respects State.sameButLatches (opcodeRead op) :=
    reading_respects_nil fun _ _ => ⟨rfl, rfl⟩
  have modrm (reg : BitVec 3) (e : RM) : Part.Respects State.sameButLatches (modrmRead reg e) :=
    reading_respects_nil fun _ _ => ⟨rfl, rfl⟩
  have first (i : Imm) : Part.Respects State.sameButLatches (imm1Read i) := reading_respects fun _ _ => ⟨rfl, rfl⟩
  have second (i : Imm) : Part.Respects State.sameButLatches (imm2Read i) := reading_respects_nil fun _ _ => ⟨rfl, rfl⟩
  apply runParts_respects
  cases h <;> simp [opcode, modrm, displacementRead_respects, first, second]

/-! ### A step -/

section
variable {s t : State}

/-- Of the latches, completing looks at the opcode byte alone. -/
theorem complete_sameButLatches (type : InstructionType) (width : DataWidth) (operands : List Operand)
    (h : s.sameButLatches t) (hop : s.op = t.op) :
    (complete type width operands s).sameButLatches (complete type width operands t) := by
  refine ⟨?_, h.2⟩
  have hclear (u : State) : (complete type width operands u).clearLatches =
      (complete type width operands { u.clearLatches with op := u.op }).clearLatches := rfl
  rw [hclear s, hclear t, h.1, hop]

/-- A plan reads its opcode byte before it completes, so both states hold it then. -/
theorem Plan.run_sameButLatches (p : Plan) (h : s.sameButLatches t) :
    related State.sameButLatches (p.run s) (p.run t) := by
  rw [Plan.run, Plan.run, h.2]
  rcases (p.fields.decodeParts p.op).respects s t h with ⟨u, v, hu, hv, huv⟩ | ⟨e, u, v, hu, hv, huv⟩
  · simp only [decodeWith, hu, hv]
    refine complete_sameButLatches _ _ _ huv ?_
    rw [p.fields.parts_yields p.op s u hu, p.fields.parts_yields p.op t v hv, Fields.after_op, Fields.after_op]
  · simp only [decodeWith, hu, hv]
    exact sameButLatches_of_eq (huv.takeError_eq e)

theorem readSegPrefix_sameButLatches (seg : SegmentType) (h : s.sameButLatches t) :
    related State.sameButLatches (readSegPrefix seg s) (readSegPrefix seg t) := by
  by_cases hr : s.pos + 1 ≤ s.buf.size
  · rw [readSegPrefix_ok hr, readSegPrefix_ok (h.buf ▸ h.pos ▸ hr)]
    exact ⟨congrArg (fun u : State => { u with pos := u.pos + 1, phase := .start }) h.1, rfl⟩
  · rw [readSegPrefix_error hr, readSegPrefix_error (h.buf ▸ h.pos ▸ hr), h.p0, h.pos]
    exact sameButLatches_of_eq (h.takeError_eq _)

theorem exec_sameButLatches (i : Instr) (h : s.sameButLatches t) :
    related State.sameButLatches (exec i s) (exec i t) := by
  rcases exec_plan i with ⟨seg, hseg⟩ | ⟨p, hp⟩
  · rw [hseg, hseg]
    exact readSegPrefix_sameButLatches seg h
  · rw [hp.exec_eq, hp.exec_eq]
    exact p.run_sameButLatches h

theorem decodeUnit_sameButLatches (h : s.sameButLatches t) :
    related State.sameButLatches (decodeUnit exec s) (decodeUnit exec t) := by
  have hfetch : s.fetch = t.fetch := h.agree fun _ => rfl
  cases hd : decode t.fetch with
  | ok x =>
    rw [decodeUnit_of_ok (hfetch ▸ hd), decodeUnit_of_ok hd]
    exact exec_sameButLatches x.1 h
  | error e =>
    rw [decodeUnit_of_error (hfetch ▸ hd), decodeUnit_of_error hd, hfetch, h.p0, h.pos]
    have hthrough := h.map (g := State.through (phasesBefore t.fetch e)) fun _ => ⟨rfl, rfl⟩
    exact sameButLatches_of_eq (hthrough.takeError_eq _)

theorem ready_sameButLatches (h : s.sameButLatches t) : s.ready.sameButLatches t.ready := by
  have hb : s.atBoundary = t.atBoundary := h.agree fun _ => rfl
  cases ht : t.atBoundary with
  | true =>
    rw [ready_of_atBoundary (hb.trans ht), ready_of_atBoundary ht]
    exact sameButLatches_of_eq h.beginCall_eq
  | false => rwa [ready_of_not_atBoundary (hb.trans ht), ready_of_not_atBoundary ht]

end

/-- Settles O4: a step chooses its branch without the latches, and each branch keeps the relation. -/
theorem noResultDependsOnLatches : Obligations.NoResultDependsOnLatches := fun _ _ h =>
  step_related h.buf h.pos (h.agree clearLatches_phase) (h.agree fun _ => rfl) (h.agree fun _ => rfl) h
    (h.map fun _ => ⟨rfl, rfl⟩) (decodeUnit_sameButLatches (ready_sameButLatches h))

/-! ### The bytes after an error -/

section
variable {te : TableEntry} {op : Byte} {second second' : Option Byte} {d : DecodeError}

/-- An entry refuses its opcode alone, or with the byte after it. -/
theorem extent_of_refusal (h : te.refusal op second = some d) : (te = .unknown ∧ d.extent = 1) ∨ d.extent = 2 := by
  cases te with
  | unknown => cases h; exact .inl ⟨rfl, rfl⟩
  | segPrefix => cases h
  | direct type width recipe =>
    obtain ⟨m, -, hm⟩ := Option.bind_eq_some_iff.mp h
    obtain ⟨-, rfl⟩ := Recipe.refusal_eq_some.mp hm
    exact .inr rfl
  | group g width column =>
    obtain ⟨m, -, hm⟩ := Option.bind_eq_some_iff.mp h
    cases hslot : groupSlot g column (regField m) with
    | none => rw [hslot] at hm; cases hm; exact .inr rfl
    | some slot =>
      rw [hslot] at hm
      obtain ⟨-, rfl⟩ := Recipe.refusal_eq_some.mp hm
      exact .inr rfl

theorem extent_pos_of_refusal (h : te.refusal op second = some d) : 0 < d.extent := by
  rcases extent_of_refusal h with ⟨-, hd⟩ | hd <;> omega

/-- A refusal that does not extend over the second byte does not depend on it. -/
theorem refusal_congr (h : te.refusal op second = some d) (hsame : 1 < d.extent → second' = second) :
    te.refusal op second' = some d := by
  rcases extent_of_refusal h with ⟨rfl, -⟩ | hd
  · exact h
  · rwa [hsame (hd ▸ Nat.lt_succ_self 1)]

end

section
variable {B : Memory} {p0 pos : Nat} {seg : Option SegmentType} {op : Byte} {e : Error}

/-- An error other than the end of the stream, given from an opcode byte on, is that opcode's refusal. -/
theorem refusal_of_decodeEntry (hop : op ∉ segPrefixBytes)
    (h : decodeEntry B p0 seg op (pos + 1) (primary op) = .error e) (hne : e.kind ≠ .unexpectedEndOfStream) :
    ∃ d, (primary op).refusal op (B.read (pos + 1)) = some d ∧ e = errorOf p0 pos d := by
  cases hrefusal : (primary op).refusal op (B.read (pos + 1)) with
  | none => exact absurd (decodeEntry_endsOnly (primary_ne_segPrefix hop) hrefusal e h) hne
  | some d =>
    exact ⟨d, rfl, (Except.error.inj ((decodeEntry_of_refusal primary_group_recipe hrefusal).symm.trans h)).symm⟩

end

/-- An error other than the end of the stream, which the algorithm gives from offset `pos` on, it gives on every buffer
with the same bytes up to the one that shows the error. -/
theorem readOpcode_error {B : Memory} {p0 fuel pos : Nat} {seg : Option SegmentType} {e : Error}
    (h : (readOpcode B p0 fuel pos seg >>= fun y => decodeEntry B p0 y.2.2 y.1 y.2.1 (primary y.1)) = .error e)
    (hne : e.kind ≠ .unexpectedEndOfStream) (hp0 : p0 ≤ pos) :
    pos < e.cursor ∧ ∀ (B' : Memory) (fuel' : Nat), B'.size - pos < fuel' →
      (∀ a, p0 ≤ a → a < e.cursor → B'.read a = B.read a) →
      (readOpcode B' p0 fuel' pos seg >>= fun y => decodeEntry B' p0 y.2.2 y.1 y.2.1 (primary y.1)) = .error e := by
  induction fuel generalizing pos seg with
  | zero => cases h; exact absurd rfl hne
  | succ fuel ih =>
    cases hread : B.read pos with
    | none => rw [readOpcode_of_end hread] at h; cases h; exact absurd rfl hne
    | some b =>
      by_cases hb : b ∈ segPrefixBytes
      · obtain ⟨g, rfl⟩ := mem_segPrefixBytes.mp hb
        rw [readOpcode_of_prefix hread] at h
        obtain ⟨hlt, hB'⟩ := ih h (Nat.le_succ_of_le hp0)
        refine ⟨Nat.lt_of_succ_lt hlt, fun B' fuel' hfuel hsame => ?_⟩
        have hread' := (hsame pos hp0 (Nat.lt_of_succ_lt hlt)).trans hread
        have hsize : pos < B'.size := read_eq_some_iff.mp ⟨_, hread'⟩
        obtain ⟨k, rfl⟩ := Nat.exists_eq_succ_of_ne_zero (Nat.ne_zero_of_lt hfuel)
        rw [readOpcode_of_prefix hread']
        exact hB' B' k (by omega) hsame
      · rw [readOpcode_of_opcode hread hb] at h
        obtain ⟨d, hrefusal, rfl⟩ := refusal_of_decodeEntry hb h hne
        have hpos := extent_pos_of_refusal hrefusal
        rw [cursor_errorOf]
        refine ⟨Nat.lt_add_of_pos_right hpos, fun B' fuel' hfuel hsame => ?_⟩
        have hread' := (hsame pos hp0 (Nat.lt_add_of_pos_right hpos)).trans hread
        obtain ⟨k, rfl⟩ := Nat.exists_eq_succ_of_ne_zero (Nat.ne_zero_of_lt hfuel)
        rw [readOpcode_of_opcode hread' hb]
        exact decodeEntry_of_refusal primary_group_recipe
          (refusal_congr hrefusal fun hd => hsame (pos + 1) (by omega) (by omega))

/-- Settles O26: the bytes read up to the one that shows an error are all that the algorithm looks at. -/
theorem bytesAfterErrorDoNotMatter : Obligations.BytesAfterErrorDoNotMatter :=
  fun _ B' p0 _ h hne hsame => (readOpcode_error h hne (le_refl p0)).2 B' _ (Nat.lt_succ_self _) hsame

/-! ### Where a call starts -/

/-- The first state of a call meets the invariant exactly on the domain (60_exceptions.md R328). -/
theorem ofCall_inv_iff (entryPoint : EntryPoint) {B : Memory} {p0 : Nat} (label : String) (mode : OutputValueMode) :
    (State.ofCall entryPoint B p0 label mode).Inv ↔ B.wf = true ∧ B.admitted = true ∧ p0 ≤ B.size := by
  constructor
  · exact fun h => ⟨h.wf, h.admitted, h.pos_le⟩
  · rintro ⟨hwf, hadm, hle⟩
    have hlatches := beginCall_latchesUnwritten (State.ofCall entryPoint B p0 label mode)
    refine ⟨hwf, hadm, le_refl p0, hle, ⟨rfl, rfl, hlatches, iff_of_true rfl rfl⟩, ?_⟩
    cases entryPoint with
    | decodeNext => rfl
    | getAssembly => exact fun _ h => nomatch h

/-- Settles O1: the first state of a call is reset's with the caller's inputs. -/
theorem callsStartInInitialState : Obligations.CallsStartInInitialState :=
  ⟨fun entryPoint _ _ label mode => ⟨rfl, rfl, rfl, rfl, rfl, rfl, rfl, rfl, ofCall_inv_iff entryPoint label mode⟩, rfl⟩

/-- Settles O2: the reset state is the first state of a call on the empty buffer, at its start. -/
theorem resetMeetsInvariant : Obligations.ResetMeetsInvariant :=
  (ofCall_inv_iff .getAssembly "" .asInteger).mpr ⟨empty_wf, rfl, le_refl 0⟩

end Sys2Proof.Machine
